-- ==== Sys2Proof/Word.lean ====
section
/-!
DEFINITION. The words of the ZU-3202: bytes, byte strings and the widths of its counters.
-/

namespace Sys2Proof

/-- One byte. -/
abbrev Byte := BitVec 8

/-- A run of bytes, lowest address first. -/
abbrev Bytes := List Byte

/-- A 64-byte request record (12_formats.md 12.2): byte i is bits 8i+7 to 8i. -/
abbrev Record := BitVec 512

/-- A stream slot, 0 to 31 (00_scope.md 1.7). -/
abbrev Slot := Fin 32

/-- A bulk channel, 0 to 3 (00_scope.md 1.7). -/
abbrev Chan := Fin 4

end Sys2Proof
end

