-- ==== Sys2Proof/Syntax.lean ====
section
/-!
DEFINITION. The commands of the ZU-3202: one constructor of Instr for each row of spec/opcode_table.json, and the
operands they carry.
-/

namespace Sys2Proof

/-- Engine Link A or Engine Link B (00_scope.md 1.2). -/
inductive Link where
  | A
  | B
deriving DecidableEq, Repr

/-- The target of a REGISTER_WRITE: a 32-bit register of a link's register window (12.1) at an offset, or the write
part of a transaction on the management port (R186) addressed to a 7-bit address: the pointer byte and the bytes
after it. -/
inductive RegisterTarget where
  | linkWindow (l : Link) (offset : BitVec 8) (value : BitVec 32)
  | map (address : BitVec 7) (pointer : Byte) (data : Bytes)
deriving DecidableEq, Repr

/-- The commands. A request carries the link whose ring it came from, its 64 bytes as the part read them, and, where
the request has parameters in engine memory, what the reads of them have returned so far, in the order the part
makes them (log 11). -/
inductive Instr where
  /-- POWER_ON_RESET: the end of power-on reset, and whether the port reports the uplink up at that moment (R144). -/
  | powerOnReset (uplinkUp : Bool)
  /-- SETTINGS_RECALL_END (R190). -/
  | settingsRecallEnd
  /-- NOMINAL_NANOSECOND (R3). -/
  | nominalNanosecond
  /-- ABSORPTION (R4). -/
  | absorption
  /-- STATION_TIME_LOW_READ (R5). -/
  | stationTimeLowRead (l : Link)
  /-- BIND: a write of 1 to the bind control (R172). -/
  | bind (l : Link)
  /-- UNBIND: a write of 0 to the bind control (R173). -/
  | unbind (l : Link)
  /-- PCIE_LINK_LOSS (R173). -/
  | pcieLinkLoss (l : Link)
  /-- PCIE_FUNCTION_RESET (R173). -/
  | pcieFunctionReset (l : Link)
  /-- REGISTER_WRITE (R172, R186, R193). -/
  | registerWrite (target : RegisterTarget)
  /-- REQUEST_TAIL_WRITE (R174). -/
  | requestTailWrite (l : Link) (value : BitVec 32)
  /-- REQUEST_READ_TIMEOUT (R175). -/
  | requestReadTimeout (l : Link)
  /-- REQUEST_READ_ERROR (R175). -/
  | requestReadError (l : Link)
  /-- UNKNOWN_KIND (R176). -/
  | unknownKind (l : Link) (r : Record)
  /-- NOP (R176). -/
  | nop (l : Link) (r : Record)
  /-- WINDOW (R181). -/
  | window (l : Link) (r : Record)
  /-- OPEN (R21 to R25); the reply is the 256-byte stream description. -/
  | openStream (l : Link) (r : Record) (replies : List Bytes)
  /-- AMEND (R29, R30); the replies are the 64-byte amendment block and then the template bytes. -/
  | amend (l : Link) (r : Record) (replies : List Bytes)
  /-- CLOSE_GRACEFUL (R33). -/
  | closeGraceful (l : Link) (r : Record)
  /-- CLOSE_IMMEDIATE (R35). -/
  | closeImmediate (l : Link) (r : Record)
  /-- STANDBY_JOIN (R38). -/
  | standbyJoin (l : Link) (r : Record)
  /-- STANDBY_LEAVE (R39). -/
  | standbyLeave (l : Link) (r : Record)
  /-- ADOPT (R40, R41). -/
  | adopt (l : Link) (r : Record)
  /-- SUBMIT (R72 to R77); the reply is the descriptor list, where the record points to one. -/
  | submit (l : Link) (r : Record) (replies : List Bytes)
  /-- CANCEL_ONE (R79). -/
  | cancelOne (l : Link) (r : Record)
  /-- CANCEL_THROUGH (R79). -/
  | cancelThrough (l : Link) (r : Record)
  /-- TIME_SET_TRIM (R6, R7). -/
  | timeSetTrim (l : Link) (r : Record)
  /-- TIME_SET_STEP (R6, R8 to R10). -/
  | timeSetStep (l : Link) (r : Record)
  /-- ROLE_TAKE (R11). -/
  | roleTake (l : Link) (r : Record)
  /-- ROLE_RELEASE (R12). -/
  | roleRelease (l : Link) (r : Record)
  /-- BULK_SETUP_SET (R145); the reply is the 128-byte channel description. -/
  | bulkSetupSet (l : Link) (r : Record) (replies : List Bytes)
  /-- BULK_SETUP_CLEAR (R146). -/
  | bulkSetupClear (l : Link) (r : Record)
  /-- BULK_POST (R147, R148); the reply is the descriptor list, where the record points to one. -/
  | bulkPost (l : Link) (r : Record) (replies : List Bytes)
  /-- BULK_ABORT_ONE (R152). -/
  | bulkAbortOne (l : Link) (r : Record)
  /-- BULK_ABORT_ALL (R152). -/
  | bulkAbortAll (l : Link) (r : Record)
  /-- TRAP_CLEAR_DEVICE (R165). -/
  | trapClearDevice (l : Link) (r : Record)
  /-- TRAP_CLEAR_STREAM (R165). -/
  | trapClearStream (l : Link) (r : Record)
  /-- REPORT_STREAM (R169). -/
  | reportStream (l : Link) (r : Record)
  /-- REPORT_DEVICE (R169). -/
  | reportDevice (l : Link) (r : Record)
  /-- COMPLETION_HEAD_WRITE (R178, R179). -/
  | completionHeadWrite (l : Link) (value : BitVec 32)
  /-- FRAME_SELECTION_EVENT of a slot (R91). -/
  | frameSelectionEvent (slot : Slot)
  /-- READ_ISSUE on a link (R110). -/
  | readIssue (l : Link)
  /-- READ_COMPLETION: what the link returned for a read attempt (R111). -/
  | readCompletion (l : Link) (attempt : Nat) (data : Bytes)
  /-- READ_TIMEOUT of a read attempt (R113). -/
  | readTimeout (l : Link) (attempt : Nat)
  /-- READ_ERROR for a read attempt (R113). -/
  | readError (l : Link) (attempt : Nat)
  /-- BULK_BLOCK_ASK of a channel (R150). -/
  | bulkBlockAsk (c : Chan)
  /-- HEAD_ELIGIBLE of a slot (R64). -/
  | headEligible (slot : Slot)
  /-- DEADLINE_EXPIRY of a slot's head (R65, R132). -/
  | deadlineExpiry (slot : Slot)
  /-- CREDIT_READY (R129, R131). -/
  | creditReady
  /-- BULK_TRIP_EXPIRY (R135). -/
  | bulkTripExpiry
  /-- PACKET_END (R137). -/
  | packetEnd
  /-- UPLINK_LOSS (R142). -/
  | uplinkLoss
  /-- UPLINK_RESTORE (R143). -/
  | uplinkRestore
  /-- FEEDBACK_FRAME: the bytes of a frame the port delivers (R155). -/
  | feedbackFrame (frame : Bytes)
  /-- HOLD_TIMER_EXPIRY of a channel (R158). -/
  | holdTimerExpiry (c : Chan)
  /-- MAP_READ: count bytes of a read transaction addressed to a 7-bit address; start says whether these are its
  first bytes (R186). -/
  | mapRead (address : BitVec 7) (start : Bool) (count : Nat)
  /-- SETTINGS_WRITE: a write part that reaches a settings row (R188). -/
  | settingsWrite (address : BitVec 7) (pointer : Byte) (data : Bytes)
  /-- MAP_TRAP_CLEAR: a write part that reaches the trap row (R166). -/
  | mapTrapClear (address : BitVec 7) (pointer : Byte) (data : Bytes)
  /-- COMMIT: a write part that writes 1 to the commit byte (R189). -/
  | commit (address : BitVec 7) (pointer : Byte) (data : Bytes)
  /-- STORE_COMPLETION (R189). -/
  | storeCompletion
  /-- PACING_RESET: a write part that writes 1 to the pacing reset byte (R191). -/
  | pacingReset (address : BitVec 7) (pointer : Byte) (data : Bytes)
  /-- STORE_BEGIN: the stop that ends a transaction in which a commit was written (R189). -/
  | storeBegin
deriving DecidableEq, Repr

end Sys2Proof
end

