-- ==== Sys2Proof/Decode.lean ====
section
/-!
DEFINITION. Words that spell a command: spec/opcode_table.json gives no row any bits, so no word does (log 33).
-/

namespace Sys2Proof

/-- The command that a word spells by the table's bits: none, since the table gives no row any bits (log 33). -/
def decodeTableWord (_nbits _w : Nat) : Option Instr := none

end Sys2Proof
end

