-- ==== Sys2Proof/Config.lean ====
section
/-!
DEFINITION. What the manual fixes for every ZU-3202 (00_scope.md 1.8), and the free values that it leaves open.
-/

namespace Sys2Proof.Config

/-- Blocks of the staging pool (R117). -/
abbrev poolBlocks : Nat := 8192

/-- Bytes of one staging block (R117). -/
abbrev blockBytes : Nat := 16384

/-- Blocks a bulk grant leaves free for frames (R120). -/
abbrev bulkReserve : Nat := 512

/-- Bulk jobs a fetch FIFO may hold (R120). -/
abbrev bulkJobs : Nat := 8

/-- Read attempts outstanding on one link (R110). -/
abbrev maxOutstanding : Nat := 16

/-- The longest read and the boundary no read crosses (R109). -/
abbrev readBytes : Nat := 4096

/-- Nanoseconds until a read times out (R113, R175). -/
abbrev readTimeoutNs : Nat := 200000

/-- Trimmed nanoseconds between two absorbed ones (R4). -/
abbrev absorbEvery : Nat := 10000

/-- The greatest magnitude of an offset and of the step residual (R6, R10). -/
abbrev maxResidual : Int := 1000000000000

/-- The greatest magnitude of the rate trim (R7). -/
abbrev maxTrim : Int := 200000

/-- Bytes of the shim, and of link overhead counted per packet (R126). -/
abbrev shimBytes : Nat := 20

/-- Bytes of link overhead counted per packet (R126). -/
abbrev overheadBytes : Nat := 24

/-- The most bytes of one bulk record (R147). -/
abbrev maxBulkRecord : Nat := 16777216

/-- Records of one frame queue (R71). -/
abbrev frameQueueDepth : Nat := 4

/-- Records of one bulk queue (R147). -/
abbrev bulkQueueDepth : Nat := 32

/-- Staging blocks a bulk channel may hold (R150). -/
abbrev channelBlocks : Nat := 8

/-- FREE VALUE (log 7, DESIGN CHOICE): station time after an advance from time that would pass 2^64 - 1, which R2
does not state. Nothing is known of it. -/
opaque stationTimePast (time advance : Nat) : BitVec 64

/-- FREE VALUE (log 35, DESIGN CHOICE): the packets-dropped field of the DISCARDED result of a bulk record at a pacing
reset, of which R160 states only the number of packets that started. Nothing is known of it. -/
opaque bulkDiscardDropped (packets started : Nat) : BitVec 32

/-- FREE VALUE (log 41, DESIGN CHOICE): the packets-dropped field of the ABORTED result of a bulk record that a failed
fetch ends, of which R154 states only the number of packets that started. Nothing is known of it. -/
opaque bulkFailureDropped (packets started : Nat) : BitVec 32

end Sys2Proof.Config
end

