-- ==== Sys2Proof/Machine/State.lean ====
section
/-!
DEFINITION. The state of the ZU-3202 as plain data, block by block (00_scope.md 1.3), and its value right after
power-on reset.
-/

namespace Sys2Proof.Machine

/-- One item per engine link. -/
structure PerLink (α : Type) where
  a : α
  b : α
deriving DecidableEq, Repr

/-! ## Station Clock (01_station_time.md 1.1) -/

/-- The Station Clock. Its role preference is an active setting; its high-half latches stand with the links. -/
structure Clock where
  /-- station time, ns (R2) -/
  time : BitVec 64
  /-- rate trim, ppb (R7) -/
  trim : Int
  /-- trim carry, in parts of 10^-9 ns (R3) -/
  carry : Nat
  /-- step residual, ns (R10) -/
  residual : Int
  /-- absorption count (R4) -/
  absorbed : Nat
  /-- time-role holder (R11) -/
  holder : Option Link
deriving DecidableEq, Repr

/-! ## Header templates (12.2.1) -/

/-- A header template with its two length patches and its sum patch (R138, R139). -/
structure Template where
  /-- the template's H bytes -/
  bytes : Bytes
  patch1 : Nat
  base1 : BitVec 16
  patch2 : Nat
  base2 : BitVec 16
  /-- first offset of the sum range -/
  sumStart : Nat
  /-- last offset of the sum range, itself inside it (log 20) -/
  sumLast : Nat
  /-- offset of the 16-bit sum field -/
  sumAt : Nat
deriving DecidableEq, Repr

/-! ## Stream Table (02_streams_and_admission.md 2.1) -/

/-- Stream states (2.2). -/
inductive StreamState where
  | closed
  | armed
  | running
  | draining
  | holding
deriving DecidableEq, Repr

/-- How a frame's video is spread over its length (R49): over the whole frame, or over La of Lt lines. -/
inductive Mode where
  | even
  | gapped (la lt : Nat)
deriving DecidableEq, Repr

/-- Where ancillary items are scheduled (R56, R57). -/
inductive Placement where
  | lead
  | gap
deriving DecidableEq, Repr

/-- The timing fields of a stream, fixed at OPEN. -/
structure Timing where
  pn : Nat
  pd : Nat
  mode : Mode
  epoch : Nat
  fn0 : BitVec 32
  fetchLead : Nat
deriving DecidableEq, Repr

/-- The failover settings of a stream, fixed at OPEN. -/
structure Failover where
  switchAfter : Nat
  returnAfter : Nat
  holdFrames : Nat
deriving DecidableEq, Repr

/-- The fields of a stream that an AMEND changes (R31). -/
structure Shape where
  n : Nat
  p : Nat
  aMax : Nat
  placement : Placement
  template : Template
  vStar : Nat
  leadPk : Nat
  gracePk : Nat
deriving DecidableEq, Repr

/-- A staged amendment (R30). -/
structure Amendment where
  shape : Shape
  rate : Nat
  tag : BitVec 32
  link : Link
deriving DecidableEq, Repr

/-- A pending graceful CLOSE (R33). -/
structure PendingClose where
  tag : BitVec 32
  link : Link
  owed : Bool
deriving DecidableEq, Repr

/-- One stream record (2.1). -/
structure StreamRec where
  state : StreamState
  owner : Option Link
  standby : Option Link
  timing : Timing
  failover : Failover
  kFirst : Nat
  shape : Shape
  rate : Nat
  holdCount : Nat
  staged : Option Amendment
  pendingClose : Option PendingClose
  lastSel : Option (BitVec 32)
deriving DecidableEq, Repr

/-- The admission sum and the over-subscription condition (R27, R28). -/
structure Admission where
  sum : Nat
  oversub : Bool
deriving DecidableEq, Repr

/-! ## Frame Queues (04_frame_queues.md 4.1) -/

/-- A run of bytes in engine memory: a segment or an ancillary item. -/
structure Piece where
  addr : BitVec 64
  len : Nat
deriving DecidableEq, Repr

/-- A frame record. Its life state is where it stands (R70): QUEUED in a queue, HELD in a FRAME group, RETIRED in
neither. -/
structure FrameRecord where
  fn : BitVec 32
  len : Nat
  segments : List Piece
  ancillary : List Piece
  tag : BitVec 32
  link : Link
  owed : Bool
deriving DecidableEq, Repr

/-! ## Source Selector (05_source_selection_and_failover.md 5.1) -/

/-- A member role: the two values of the preferred source (R90). -/
inductive Role where
  | owner
  | standby
deriving DecidableEq, Repr

/-- Selector state of one slot. -/
structure Selector where
  preferred : Role
  miss : Nat
  present : Nat
  marks : PerLink Bool
  due : Option Int
deriving DecidableEq, Repr

/-! ## Schedule Builder (03_the_pacing_schedule.md 3.2, 3.5) -/

/-- The glide state of a slot once it is present (R51). -/
structure Glide where
  offset : Nat
  interval : Nat
  index : Nat
deriving DecidableEq, Repr

/-- Why an entry was dropped (R134). -/
inductive DropCause where
  | late
  | down
  | fetch
  | closed
deriving DecidableEq, Repr

/-- The done flag of an entry (R61). -/
inductive Done where
  | pending
  | sent
  | dropped (cause : DropCause)
deriving DecidableEq, Repr

/-- Whether an entry's payload has arrived, may still arrive, or never will (R112). -/
inductive Arrival where
  | waiting
  | arrived
  | never
deriving DecidableEq, Repr

/-- Kind and code of an entry (R61). -/
inductive EntryKind where
  | live
  | anc
  | markRepeat
  | markEnd
deriving DecidableEq, Repr

/-- One departure entry (R61). Its payload location is an offset and a length in the frame's staging layout. -/
structure Entry where
  kind : EntryKind
  index : Nat
  sched : Int
  elig : Int
  deadline : Int
  place : Nat
  len : Nat
  arrival : Arrival
  done : Done
deriving DecidableEq, Repr

/-- What a FRAME group holds beside its entries (R61): the record, whether its link was the standby at selection,
n_f and a_f, the staging reservation (a released block is absent, R119), the layout bytes that done reads have
written (R112), the fetch-failed mark (R114) and the greatest lateness of a sent entry (R66). -/
structure FrameInfo where
  record : FrameRecord
  fromStandby : Bool
  nf : Nat
  af : Nat
  blocks : List (Option Nat)
  got : List (Nat × Nat)
  failed : Bool
  lateness : Nat
deriving DecidableEq, Repr

/-- The four kinds of group (R61). -/
inductive GroupKind where
  | frame (info : FrameInfo)
  | repeatMark
  | endMark
  | closingEnd
deriving DecidableEq, Repr

/-- A group of a departure list (R61), with the header template its packets carry (log 22). -/
structure Group where
  kind : GroupKind
  index : Nat
  fn : BitVec 32
  interval : Nat
  template : Template
  entries : List Entry
deriving DecidableEq, Repr

/-- Schedule Builder state of one slot. -/
structure Sched where
  glide : Option Glide
  groups : List Group
deriving DecidableEq, Repr

/-! ## Fetch engines and Staging Memory (06_fetch_and_staging_memory.md) -/

/-- Where one read of a plan stands (6.1). -/
inductive ReadState where
  | unissued
  | outstanding
  | retry
  | done
  | abandoned
deriving DecidableEq, Repr

/-- One read of a read plan (R109): engine address, length, place in the layout or in the bulk block. -/
structure Read where
  addr : BitVec 64
  len : Nat
  place : Nat
  state : ReadState
  attempts : Nat
deriving DecidableEq, Repr

/-- What a fetch job reads (6.1): one selected frame, or one block of a channel's active record. -/
inductive JobWork where
  | frame (slot : Slot) (index : Nat)
  | bulk (c : Chan) (block : Nat)
deriving DecidableEq, Repr

/-- A fetch job. Its serial number is the model's own (log 31). -/
structure Job where
  id : Nat
  work : JobWork
  reads : List Read
deriving DecidableEq, Repr

/-- An outstanding read attempt with the expiry of its timeout (R113). -/
structure Attempt where
  id : Nat
  job : Nat
  read : Nat
  expiry : Int
deriving DecidableEq, Repr

/-- A read waiting to be issued again (R114). -/
structure RetryRef where
  job : Nat
  read : Nat
deriving DecidableEq, Repr

/-- One fetch engine (6.1). -/
structure FetchEngine where
  jobs : List Job
  outstanding : List Attempt
  retry : List RetryRef
  nextJob : Nat
  nextAttempt : Nat
deriving DecidableEq, Repr

/-- The staging pool (R117): the free list, and the bytes of all blocks as (block x 16,384 + offset, byte) pairs in
rising order of address, none of them 0. -/
structure Staging where
  free : List Nat
  mem : List Host.Cell
deriving DecidableEq, Repr

/-! ## Uplink Arbiter (07_uplink_arbitration_and_shaping.md 7.1) -/

/-- Transmitter states (R123). -/
inductive TxState where
  | idle
  | sending
  | down
deriving DecidableEq, Repr

/-- Packet kinds of the shim (12.5). -/
inductive PacketKind where
  | live
  | anc
  | mark
  | bulk
  | feedback
deriving DecidableEq, Repr

/-- The 20-byte shim, field by field (12.5, R140). -/
structure Shim where
  kind : PacketKind
  first : Bool
  last : Bool
  fromStandby : Bool
  abandon : Bool
  unit : Byte
  code : Byte
  seq : BitVec 16
  index : BitVec 16
  count : BitVec 16
  frame : BitVec 32
  stamp : BitVec 32
  len : BitVec 16
deriving DecidableEq, Repr

/-- A packet as it leaves (R136): patched header, shim, payload. -/
structure Packet where
  header : Bytes
  shim : Shim
  payload : Bytes
deriving DecidableEq, Repr

/-- The packet on the wire with its wire length (R126) and the nanoseconds it occupies the transmitter (R137). -/
structure WirePacket where
  packet : Packet
  wireLen : Nat
  occupies : Nat
deriving DecidableEq, Repr

/-- What tells one head from another: its slot, its group's frame index, whether it is a closing END, the entry. -/
structure HeadKey where
  slot : Slot
  index : Nat
  closing : Bool
  entry : Entry
deriving DecidableEq, Repr

/-- The credit wait: the chosen head and its cost (R129). -/
structure CreditWait where
  head : HeadKey
  cost : Nat
deriving DecidableEq, Repr

/-- The Uplink Arbiter. -/
structure Uplink where
  tx : TxState
  wire : Option WirePacket
  credit : Nat
  wait : Option CreditWait
  bulkWait : Option Nat
  rr : Chan
  trip : Option Int
  slotSeq : Vector (BitVec 16) 32
  chanSeq : Vector (BitVec 16) 4
  /-- Gb/s at which the port runs since the recall (R127) -/
  portRate : Nat
deriving DecidableEq, Repr

/-! ## Bulk Unit (08_bulk_transfer_and_studio_feedback.md 8.1) -/

/-- Configuration of a channel (R145). -/
structure ChannelConfig where
  template : Template
  pb : Nat
deriving DecidableEq, Repr

/-- A bulk record (R148), with how many of its blocks have been granted (R150). -/
structure BulkRecord where
  tag : BitVec 32
  segments : List Piece
  total : Nat
  sent : Nat
  granted : Nat
  link : Link
  owed : Bool
deriving DecidableEq, Repr

/-- A staging block a channel holds: its number in the active record, the pool block, the bytes written (R150). -/
structure HeldBlock where
  number : Nat
  pool : Nat
  got : List (Nat × Nat)
deriving DecidableEq, Repr

/-- A pending abandon marker (R153). -/
structure Abandon where
  tag : BitVec 32
  index : Nat
  count : Nat
deriving DecidableEq, Repr

/-- The hold state with its timer: a held channel's timer runs to an expiry, a released one's is idle (R157). -/
inductive Hold where
  | released
  | held (expiry : Int)
deriving DecidableEq, Repr

/-- One bulk channel. -/
structure Channel where
  config : Option ChannelConfig
  queue : List BulkRecord
  blocks : List HeldBlock
  abandon : Option Abandon
  hold : Hold
  lastSeq : Option (BitVec 16)
deriving DecidableEq, Repr

/-! ## Trap Unit (09_traps_and_counters.md) -/

/-- The ten device traps (R162). -/
inductive DeviceTrap where
  | uplinkDown
  | oversub
  | timeClamped
  | poolStarved
  | cplLost (l : Link)
  | linkDown (l : Link)
  | settingsDefaulted
  | bulkHoldExpired
deriving DecidableEq, Repr

/-- The five per-stream traps (R163). -/
inductive StreamTrap where
  | lateDrop
  | miss
  | switch
  | fetchFail
  | orphaned
deriving DecidableEq, Repr

/-- The counters of one slot (R167). -/
structure StreamCounters where
  liveSent : BitVec 64
  markersSent : BitVec 64
  framesSent : BitVec 32
  framesPartial : BitVec 32
  framesFetchFailed : BitVec 32
  framesStarved : BitVec 32
  framesStale : BitVec 32
  framesShadowed : BitVec 32
  framesTooLong : BitVec 32
  framesWindow : BitVec 32
  framesCancelled : BitVec 32
  framesDiscarded : BitVec 32
  sentPreferred : BitVec 32
  filledIn : BitVec 32
  repeatedAbsent : BitVec 32
  repeatedHolding : BitVec 32
  flips : BitVec 32
  returns : BitVec 32
  dropsLate : BitVec 32
  dropsDown : BitVec 32
  dropsFetch : BitVec 32
  dropsClosed : BitVec 32
  fetchRetries : BitVec 32
  lateness : BitVec 32
deriving DecidableEq, Repr

/-- The device counters (R168). -/
structure DeviceCounters where
  bulkSent : BitVec 64
  feedbackIgnored : BitVec 32
  poolStarvations : BitVec 32
  bulkRetries : BitVec 32
  bulkFailures : BitVec 32
  closingSent : BitVec 32
  closingDropped : BitVec 32
deriving DecidableEq, Repr

/-- The Trap Unit: device traps as the map's 16-bit word, per-stream traps as the REPORT's traps byte, counters. -/
structure Traps where
  device : BitVec 16
  stream : Vector (BitVec 8) 32
  counters : Vector StreamCounters 32
  devCounters : DeviceCounters
deriving DecidableEq, Repr

/-! ## Engine Link Interfaces (10_engine_links.md 10.1) -/

/-- An address window (R180): addresses base to limit, both included, while enabled. -/
structure AddrWindow where
  base : BitVec 64
  limit : BitVec 64
  enabled : Bool
deriving DecidableEq, Repr

/-- Interrupt state (R179). -/
inductive IrqState where
  | armed
  | sent
deriving DecidableEq, Repr

/-- The request in progress (R174): its record once the entry has been read, what its parameter reads have returned
so far, and the expiry of the read under way (R175). -/
structure RequestInProgress where
  record : Option Record
  got : List Bytes
  expiry : Int
deriving DecidableEq, Repr

/-- One Engine Link Interface, with the link's high-half latch of station time (R5). -/
structure LinkIf where
  up : Bool
  reqBase : BitVec 64
  reqEntries : BitVec 32
  cplBase : BitVec 64
  cplEntries : BitVec 32
  reqTail : Nat
  reqHead : Nat
  cplTail : Nat
  cplHead : Nat
  irq : IrqState
  request : Option RequestInProgress
  windows : Vector AddrWindow 8
  lost : BitVec 32
  fault : Bool
  bindError : Bool
  notReady : Bool
  latch : BitVec 32
deriving DecidableEq, Repr

/-! ## Management Port and Settings Store (11_management_port_and_stored_settings.md) -/

/-- The settings of 11.2. -/
structure Settings where
  rate : Nat
  ceiling : Nat
  lineRate : Nat
  retries : Nat
  rolePref : Option Link
  floor : Nat
  burst : Nat
  holdLimit : Nat
  tripTime : Nat
  fbOffset : Nat
  i2c : Nat
deriving DecidableEq, Repr

/-- The nonvolatile image and whether its check value matches its settings (R189, log 18). -/
structure Image where
  settings : Settings
  checkOk : Bool
deriving DecidableEq, Repr

/-- The Settings Store: the ready flag of the recall (R190), active settings, image, commit busy, and whether a store
is under way (R189). -/
structure Store where
  ready : Bool
  active : Settings
  image : Image
  busy : Bool
  storing : Bool
deriving DecidableEq, Repr

/-- The Management Port (R186): map pointer, the row latched by the read transaction under way, the 7-bit address
in use. -/
structure Port where
  pointer : Byte
  latch : Option (Nat × Bytes)
  address : BitVec 7
deriving DecidableEq, Repr

/-! ## What the part puts out -/

/-- Completion statuses (12.3). -/
inductive Status where
  | ok
  | clamped
  | badRequest
  | noSlot
  | wrongState
  | notMember
  | noCapacity
  | queueFull
  | order
  | tooLate
  | tooEarly
  | window
  | tooLong
  | notFound
  | roleHeld
  | notRole
  | sent
  | partialSent
  | shadowed
  | stale
  | cancelled
  | fetchFailed
  | starved
  | discarded
  | applied
  | superseded
  | aborted
deriving DecidableEq, Repr

/-- Notice causes (12.3). -/
inductive Cause where
  | trap
  | switch
  | membership
  | role
  | reset
deriving DecidableEq, Repr

/-- A completion answers a request or is written unasked (R177). -/
inductive CompletionKind where
  | result (status : Status)
  | notice (cause : Cause)
deriving DecidableEq, Repr

/-- A completion record (12.3). -/
structure Completion where
  kind : CompletionKind
  unit : Byte
  tag : BitVec 32
  fn : BitVec 32
  sent : BitVec 32
  dropped : BitVec 32
  lateness : BitVec 32
  reqHead : BitVec 16
  b26 : Byte
  b27 : Byte
  b28 : Byte
  b29 : Byte
deriving DecidableEq, Repr

/-- What leaves the part (log 31): a completion written into the ring at an address, a message interrupt, the DMA
write of a REPORT record, a DMA read made in taking a request, a DMA read of a fetch engine with its attempt number,
a packet started on the uplink, the value a read of the station-time low half returned, the bytes a map read
returned, and an I2C address not acknowledged. -/
inductive Output where
  | completion (l : Link) (addr : BitVec 64) (c : Completion)
  | interrupt (l : Link)
  | reportWrite (l : Link) (addr : BitVec 64) (bytes : Bytes)
  | requestRead (l : Link) (addr : BitVec 64) (len : Nat)
  | dataRead (l : Link) (attempt : Nat) (addr : BitVec 64) (len : Nat)
  | packet (p : Packet)
  | timeLow (l : Link) (value : BitVec 32)
  | mapBytes (bytes : Bytes)
  | notAcknowledged
deriving DecidableEq, Repr

/-- The whole block, the record of what it has put out, and the commands that wait. -/
structure State where
  clock : Clock
  links : PerLink LinkIf
  streams : Vector StreamRec 32
  admission : Admission
  queues : PerLink (Vector (List FrameRecord) 32)
  selectors : Vector Selector 32
  scheds : Vector Sched 32
  engines : PerLink FetchEngine
  staging : Staging
  uplink : Uplink
  channels : Vector Channel 4
  traps : Traps
  store : Store
  port : Port
  outputs : List Output
  pending : List Instr
deriving DecidableEq, Repr

/-- Why the machine stops. The manual describes no behaviour in which the part stops (INVENTORY.md, Faults), so no
constructor exists and nothing raises one: safe. -/
inductive Fault where
deriving DecidableEq, Repr

/-- Why a command has no meaning. -/
inductive Refusal where
  /-- Raised only by an arm of exec whose command has no meaning yet; safe, since the machine stops there. -/
  | notModelled (mnemonic : String)
deriving DecidableEq, Repr

/-! ## Reset values -/

/-- The Station Clock at power-on (R16). -/
def Clock.initial : Clock :=
  { time := 0, trim := 0, carry := 0, residual := 0, absorbed := 0, holder := none }

/-- The template of a slot that has never been opened (log 4). -/
def Template.blank : Template :=
  { bytes := [], patch1 := 0, base1 := 0, patch2 := 0, base2 := 0, sumStart := 0, sumLast := 0, sumAt := 0 }

/-- A CLOSED slot (R18). Fields that keep no meaning while CLOSED hold the values of log 4. -/
def StreamRec.blank : StreamRec :=
  { state := .closed, owner := none, standby := none
    timing := { pn := 0, pd := 0, mode := .even, epoch := 0, fn0 := 0, fetchLead := 0 }
    failover := { switchAfter := 0, returnAfter := 0, holdFrames := 0 }
    kFirst := 0
    shape := { n := 0, p := 0, aMax := 0, placement := .lead, template := Template.blank, vStar := 0, leadPk := 0,
               gracePk := 0 }
    rate := 0, holdCount := 0, staged := none, pendingClose := none, lastSel := none }

/-- The initial selector state (R90). -/
def Selector.initial : Selector :=
  { preferred := .owner, miss := 0, present := 0, marks := ⟨false, false⟩, due := none }

/-- An empty departure list and an absent glide state (R69). -/
def Sched.initial : Sched := { glide := none, groups := [] }

/-- A fetch engine with nothing to do (R121). -/
def FetchEngine.initial : FetchEngine :=
  { jobs := [], outstanding := [], retry := [], nextJob := 0, nextAttempt := 0 }

/-- All blocks free (R122); no byte listed (log 5). -/
def Staging.initial : Staging := { free := List.range Config.poolBlocks, mem := [] }

/-- The Uplink Arbiter at power-on before the recall ends (R144, log 3), given whether the port reports the uplink up. -/
def Uplink.initial (up : Bool) : Uplink :=
  { tx := if up then .idle else .down, wire := none, credit := 0, wait := none, bulkWait := none, rr := 3
    trip := none, slotSeq := Vector.replicate 32 0, chanSeq := Vector.replicate 4 0, portRate := 10 }

/-- A channel at power-on and after a pacing reset (R160). -/
def Channel.initial : Channel :=
  { config := none, queue := [], blocks := [], abandon := none, hold := .released, lastSeq := none }

/-- Counters of a slot all 0 (R170). -/
def StreamCounters.zero : StreamCounters :=
  { liveSent := 0, markersSent := 0, framesSent := 0, framesPartial := 0, framesFetchFailed := 0, framesStarved := 0
    framesStale := 0, framesShadowed := 0, framesTooLong := 0, framesWindow := 0, framesCancelled := 0
    framesDiscarded := 0, sentPreferred := 0, filledIn := 0, repeatedAbsent := 0, repeatedHolding := 0, flips := 0
    returns := 0, dropsLate := 0, dropsDown := 0, dropsFetch := 0, dropsClosed := 0, fetchRetries := 0, lateness := 0 }

/-- Device counters all 0 (R170). -/
def DeviceCounters.zero : DeviceCounters :=
  { bulkSent := 0, feedbackIgnored := 0, poolStarvations := 0, bulkRetries := 0, bulkFailures := 0, closingSent := 0
    closingDropped := 0 }

/-- The Trap Unit with every trap clear and every counter 0 (R170). -/
def Traps.initial : Traps :=
  { device := 0, stream := Vector.replicate 32 0, counters := Vector.replicate 32 StreamCounters.zero
    devCounters := DeviceCounters.zero }

/-- A window disabled with base and limit 0 (R182, R185). -/
def AddrWindow.closed : AddrWindow := { base := 0, limit := 0, enabled := false }

/-- A link interface at power-on (R185, R16). -/
def LinkIf.initial : LinkIf :=
  { up := false, reqBase := 0, reqEntries := 0, cplBase := 0, cplEntries := 0, reqTail := 0, reqHead := 0
    cplTail := 0, cplHead := 0, irq := .armed, request := none, windows := Vector.replicate 8 AddrWindow.closed
    lost := 0, fault := false, bindError := false, notReady := false, latch := 0 }

/-- The factory defaults (11.2). -/
def Settings.factory : Settings :=
  { rate := 1000000, ceiling := 90, lineRate := 10, retries := 3, rolePref := none, floor := 0, burst := 65536
    holdLimit := 2000, tripTime := 100, fbOffset := 42, i2c := 0x2C }

/-- The Settings Store at power-on, before the recall ends, over an image (R185, R189, log 3). -/
def Store.initial (image : Image) : Store :=
  { ready := false, active := Settings.factory, image := image, busy := false, storing := false }

/-- The Management Port at power-on (R186, log 3). -/
def Port.initial : Port := { pointer := 0, latch := none, address := 0x2C }

/-- The machine right after power-on reset, the recall not yet ended, the port reporting the uplink up (log 1) and
the image as log 2 says. -/
def State.reset : State :=
  { clock := Clock.initial
    links := ⟨LinkIf.initial, LinkIf.initial⟩
    streams := Vector.replicate 32 StreamRec.blank
    admission := { sum := 0, oversub := false }
    queues := ⟨Vector.replicate 32 [], Vector.replicate 32 []⟩
    selectors := Vector.replicate 32 Selector.initial
    scheds := Vector.replicate 32 Sched.initial
    engines := ⟨FetchEngine.initial, FetchEngine.initial⟩
    staging := Staging.initial
    uplink := Uplink.initial true
    channels := Vector.replicate 4 Channel.initial
    traps := Traps.initial
    store := Store.initial { settings := Settings.factory, checkOk := true }
    port := Port.initial
    outputs := []
    pending := [] }

end Sys2Proof.Machine
end

