-- ==== Sys2Proof/Machine/Formats.lean ====
section
/-!
DEFINITION. The layouts of 12_formats.md: fields of the records the part reads, codes and bytes of the records it
writes.
-/

namespace Sys2Proof.Machine

/-! ## Fields of a request record (12.2): little-endian -/

/-- Byte i of a request record. -/
def recByte (r : Record) (i : Nat) : Byte := r.extractLsb' (8 * i) 8

/-- The 32-bit field at byte i of a request record. -/
def recU32 (r : Record) (i : Nat) : BitVec 32 := r.extractLsb' (8 * i) 32

/-- The 64-bit field at byte i of a request record. -/
def recU64 (r : Record) (i : Nat) : BitVec 64 := r.extractLsb' (8 * i) 64

/-- The kind byte (12.2). -/
def recKind (r : Record) : Nat := (recByte r 0).toNat

/-- The slot or channel byte (12.2). -/
def recUnit (r : Record) : Byte := recByte r 2

/-- The tag (12.2). -/
def recTag (r : Record) : BitVec 32 := recU32 r 4

/-- Flag bit 0, inline segment (12.2). -/
def recInline (r : Record) : Bool := (recByte r 1).getLsbD 0

/-- Flag bit 1, reset counters (12.2). -/
def recReset (r : Record) : Bool := (recByte r 1).getLsbD 1

/-- The action, mode or scope byte at offset 8 (12.2). -/
def recAction (r : Record) : Nat := (recByte r 8).toNat

/-- The scope byte at offset 12 of CANCEL and BULK-ABORT (12.2). -/
def recScope (r : Record) : Nat := (recByte r 12).toNat

/-- The slot a slot byte names, if it is 0 to 31. -/
def slotOf (b : Byte) : Option Slot := if h : b.toNat < 32 then some ⟨b.toNat, h⟩ else none

/-- The channel a channel byte names, if it is 0 to 3. -/
def chanOf (b : Byte) : Option Chan := if h : b.toNat < 4 then some ⟨b.toNat, h⟩ else none

/-! ## Little-endian and big-endian byte strings (00_scope.md 1.7) -/

/-- The number a byte string holds, lowest byte first. -/
def leNat : Bytes → Nat
  | [] => 0
  | b :: bs => b.toNat + 256 * leNat bs

/-- The field of n bytes at an offset of a byte string, lowest byte first; bytes past the string count as absent. -/
def leField (bs : Bytes) (off n : Nat) : Nat := leNat ((bs.drop off).take n)

/-- n bytes of a number, lowest byte first. -/
def leBytes : Nat → Nat → Bytes
  | 0, _ => []
  | n + 1, v => BitVec.ofNat 8 v :: leBytes n (v / 256)

/-- n bytes of a number, highest byte first. -/
def beBytes (n v : Nat) : Bytes := (leBytes n v).reverse

/-! ## Codes (12.3, 12.4, 12.5) -/

/-- Links are coded 0 for NONE or absent, 1 for A and 2 for B (12). -/
def linkCode : Option Link → Byte
  | none => 0
  | some .A => 1
  | some .B => 2

/-- Preferred source: 1 OWNER, 2 STANDBY (12.3). -/
def roleCode : Role → Byte
  | .owner => 1
  | .standby => 2

/-- Stream states (12.3). -/
def stateCode : StreamState → Byte
  | .closed => 0
  | .armed => 1
  | .running => 2
  | .draining => 3
  | .holding => 4

/-- Status codes (12.3). -/
def statusCode : Status → Byte
  | .ok => 0
  | .clamped => 1
  | .badRequest => 16
  | .noSlot => 17
  | .wrongState => 18
  | .notMember => 19
  | .noCapacity => 20
  | .queueFull => 21
  | .order => 22
  | .tooLate => 23
  | .tooEarly => 24
  | .window => 25
  | .tooLong => 26
  | .notFound => 27
  | .roleHeld => 28
  | .notRole => 29
  | .sent => 32
  | .partialSent => 33
  | .shadowed => 34
  | .stale => 35
  | .cancelled => 36
  | .fetchFailed => 37
  | .starved => 38
  | .discarded => 39
  | .applied => 40
  | .superseded => 41
  | .aborted => 42

/-- Notice causes (12.3). -/
def causeCode : Cause → Byte
  | .trap => 1
  | .switch => 2
  | .membership => 3
  | .role => 4
  | .reset => 5

/-- Packet kinds (12.5). -/
def packetKindCode : PacketKind → Byte
  | .live => 1
  | .anc => 2
  | .mark => 3
  | .bulk => 4
  | .feedback => 5

/-! ## Records the part writes -/

/-- The completion's kind byte and its status or cause byte (12.3). -/
def completionHeader : CompletionKind → Bytes
  | .result st => [1, statusCode st]
  | .notice ca => [2, causeCode ca]

/-- The 32 bytes of a completion entry (12.3); bytes 3, 30 and 31 are 0 (R192). -/
def completionBytes (c : Completion) : Bytes :=
  completionHeader c.kind ++ [c.unit, 0] ++ leBytes 4 c.tag.toNat ++ leBytes 4 c.fn.toNat ++ leBytes 4 c.sent.toNat
    ++ leBytes 4 c.dropped.toNat ++ leBytes 4 c.lateness.toNat ++ leBytes 2 c.reqHead.toNat
    ++ [c.b26, c.b27, c.b28, c.b29, 0, 0]

/-- The flags byte of the shim (12.5). -/
def shimFlags (s : Shim) : Byte :=
  (if s.first then 1 else 0) ||| (if s.last then 2 else 0) ||| (if s.fromStandby then 4 else 0)
    ||| (if s.abandon then 8 else 0)

/-- The 20 bytes of the shim, big-endian (12.5). -/
def shimToBytes (s : Shim) : Bytes :=
  [packetKindCode s.kind, shimFlags s, s.unit, s.code] ++ beBytes 2 s.seq.toNat ++ beBytes 2 s.index.toNat
    ++ beBytes 2 s.count.toNat ++ beBytes 4 s.frame.toNat ++ beBytes 4 s.stamp.toNat ++ beBytes 2 s.len.toNat

/-- A packet's bytes as they leave: patched header, shim, payload (R136). -/
def packetBytes (p : Packet) : Bytes := p.header ++ shimToBytes p.shim ++ p.payload

/-- The 128 bytes of a STREAM REPORT record (12.4, R169). -/
def reportStreamBytes (slot : Slot) (st : StreamRec) (sel : Selector) (traps : BitVec 8) (c : StreamCounters)
    (time : BitVec 64) : Bytes :=
  [1, BitVec.ofNat 8 slot.val, stateCode st.state, linkCode st.owner, linkCode st.standby, roleCode sel.preferred,
    BitVec.ofNat 8 sel.miss, BitVec.ofNat 8 sel.present]
    ++ leBytes 4 (match st.lastSel with | some fn => fn.toNat | none => 0)
    ++ [if st.lastSel.isSome then 1 else 0, traps, 0, 0] ++ leBytes 8 time.toNat
    ++ leBytes 8 c.liveSent.toNat ++ leBytes 8 c.markersSent.toNat
    ++ ([c.framesSent, c.framesPartial, c.framesFetchFailed, c.framesStarved, c.framesStale, c.framesShadowed,
        c.framesTooLong, c.framesWindow, c.framesCancelled, c.framesDiscarded, c.sentPreferred, c.filledIn,
        c.repeatedAbsent, c.repeatedHolding, c.flips, c.returns, c.dropsLate, c.dropsDown, c.dropsFetch,
        c.dropsClosed, c.fetchRetries, c.lateness].flatMap fun w => leBytes 4 w.toNat)

/-- The 128 bytes of a DEVICE REPORT record (12.4, R169); unlisted bytes are 0 (R192). -/
def reportDeviceBytes (adm : Admission) (holder : Option Link) (device : BitVec 16) (c : DeviceCounters)
    (time : BitVec 64) : Bytes :=
  [2, if adm.oversub then 1 else 0, linkCode holder, 0] ++ leBytes 2 device.toNat ++ [0, 0] ++ leBytes 8 time.toNat
    ++ leBytes 8 c.bulkSent.toNat
    ++ ([c.feedbackIgnored, c.poolStarvations, c.bulkRetries, c.bulkFailures, c.closingSent,
        c.closingDropped].flatMap fun w => leBytes 4 w.toNat)
    ++ List.replicate 80 0

/-! ## Header patching (R138, R139) -/

/-- Write a 16-bit value big-endian at an offset of a byte string. -/
def putBE16 (bs : Bytes) (off : Nat) (v : BitVec 16) : Bytes :=
  (bs.set off (v.extractLsb' 8 8)).set (off + 1) (v.extractLsb' 0 8)

/-- The template after its two length patches, the second last (R138). -/
def lengthPatched (t : Template) (payload : Nat) : Bytes :=
  putBE16 (putBE16 t.bytes t.patch1 (t.base1 + BitVec.ofNat 16 (20 + payload))) t.patch2
    (t.base2 + BitVec.ofNat 16 (20 + payload))

/-- One addition of the ones' complement sum: a carry out of 16 bits is added back in (R139). -/
def onesAdd (a w : Nat) : Nat := if a + w < 65536 then a + w else a + w - 65535

/-- The ones' complement sum of a byte string read as 16-bit big-endian words, an odd last byte as a high byte. -/
def onesSum : Nat → Bytes → Nat
  | acc, [] => acc
  | acc, [b] => onesAdd acc (256 * b.toNat)
  | acc, b :: c :: bs => onesSum (onesAdd acc (256 * b.toNat + c.toNat)) bs

/-- The bytes the sum covers: the range as it stands, the sum field counting as zero (R139). -/
def sumRange (t : Template) (bs : Bytes) : Bytes :=
  (((bs.set t.sumAt 0).set (t.sumAt + 1) 0).drop t.sumStart).take (t.sumLast + 1 - t.sumStart)

/-- The header of a packet: the template with both lengths and then the sum written (R138, R139). -/
def patchedHeader (t : Template) (payload : Nat) : Bytes :=
  let bs := lengthPatched t payload
  putBE16 bs t.sumAt (~~~ BitVec.ofNat 16 (onesSum 0 (sumRange t bs)))

/-! ## Serial order -/

/-- a is newer than b in 32-bit serial order (R1). -/
def newer32 (a b : BitVec 32) : Bool := decide (1 ≤ (a - b).toNat ∧ (a - b).toNat ≤ 2 ^ 31 - 1)

/-- a is newer than b in 16-bit serial order (R1). -/
def newer16 (a b : BitVec 16) : Bool := decide (1 ≤ (a - b).toNat ∧ (a - b).toNat ≤ 2 ^ 15 - 1)

end Sys2Proof.Machine
end

