-- ==== Sys2Proof/Machine/Schedule.lean ====
section
/-!
DEFINITION. The arithmetic of the pacing schedule (03_the_pacing_schedule.md) and of the reserved rate (R26), and the
groups of entries built from it.
-/

namespace Sys2Proof.Machine

/-- The shortest frame length of a stream (02 2.1). -/
def shortestFrame (t : Timing) : Nat := t.pn * 1000000000 / t.pd

/-- The part of a length over which video is spread (R49). -/
def spanOf (m : Mode) (len : Nat) : Nat :=
  match m with
  | .even => len
  | .gapped la lt => len * la / lt

/-- The shortest span of a stream (02 2.1). -/
def shortestSpan (t : Timing) : Nat := spanOf t.mode (shortestFrame t)

/-- F_k, the start of frame k (R48). -/
def frameStart (t : Timing) (k : Nat) : Nat := t.epoch + k * t.pn * 1000000000 / t.pd

/-- The frame number of frame k (R48). -/
def frameNumber (t : Timing) (k : Nat) : BitVec 32 := t.fn0 + BitVec.ofNat 32 k

/-- S^full_k (R49). -/
def fullLength (t : Timing) (k : Nat) : Nat := frameStart t (k + 1) - frameStart t k

/-- S_k (R49). -/
def span (t : Timing) (k : Nat) : Nat := spanOf t.mode (fullLength t k)

/-- D_k, the nominal interval (R50). -/
def interval (t : Timing) (sh : Shape) (k : Nat) : Nat := span t k / sh.n

/-- The effective offset after one event of glide (R52). -/
def glideTo (offset last target : Nat) : Nat :=
  if target ≤ offset + last / 2 ∧ offset ≤ target + last / 2 then target
  else if offset < target then offset + last / 2
  else offset - last / 2

/-- The effective offset at an event, from the glide state before it: V* itself at the first event (R51), else one
step of glide (R52). -/
def offsetAt (g : Option Glide) (vStar : Nat) : Nat :=
  match g with
  | none => vStar
  | some g => glideTo g.offset g.interval vStar

/-- The glide state after the event of frame k (R51, R52). -/
def glideAfter (t : Timing) (sh : Shape) (g : Option Glide) (k : Nat) : Glide :=
  { offset := offsetAt g sh.vStar, interval := interval t sh k, index := k }

/-- The due time of the frame after the one whose event left the glide state g: from its provisional offset (R53). -/
def dueAfter (t : Timing) (sh : Shape) (g : Glide) : Int :=
  (frameStart t (g.index + 1) : Int) + (glideTo g.offset g.interval sh.vStar : Nat) - t.fetchLead

/-- The due time of the first frame, fixed at OPEN (R53). -/
def firstDue (t : Timing) (vStar k : Nat) : Int := (frameStart t k : Int) + vStar - t.fetchLead

/-- k_first: the lowest k whose selection time is not below the station time of taking (R25). -/
def firstIndex (t : Timing) (vStar : Nat) (tOpen : Nat) : Nat :=
  let m : Int := (tOpen : Int) + t.fetchLead - vStar - t.epoch
  (m.toNat * t.pd + (t.pn * 1000000000 - 1)) / (t.pn * 1000000000)

/-- Whether the frame after the one whose event left g is out of the range of the schedule arithmetic (R19, log 29). -/
def rangeEnds (t : Timing) (sh : Shape) (g : Glide) : Bool :=
  decide (2 ^ 40 ≤ g.index + 1)
    || decide (2 ^ 63 < frameStart t (g.index + 1) + glideTo g.offset g.interval sh.vStar)

/-- H of a template. -/
def headerLength (t : Template) : Nat := t.bytes.length

/-- The reserved rate in kbit/s (R26). -/
def reservedRate (t : Timing) (sh : Shape) : Nat :=
  let w := headerLength sh.template + Config.shimBytes + sh.p + Config.overheadBytes
  ((sh.n + sh.aMax) * w * 8 * t.pd + (t.pn * 1000 - 1)) / (t.pn * 1000)

/-- Wire length of a packet (R126). -/
def wireLength (h payload : Nat) : Nat := h + Config.shimBytes + payload + Config.overheadBytes

/-- Cost of a packet in micro-bits (R126). -/
def packetCost (wire : Nat) : Nat := wire * 8 * 1000000

/-- The credit cap in micro-bits (R125). -/
def creditCap (s : Settings) : Nat := s.burst * 8 * 1000000

/-- Nanoseconds a packet occupies the transmitter at a line rate in Gb/s (R137). -/
def occupancy (wire rate : Nat) : Nat := (wire * 8 + (rate - 1)) / rate

/-- The admission limit in kbit/s (R27). -/
def admissionLimit (s : Settings) : Nat := s.rate * s.ceiling / 100

/-! ## Groups (R54 to R62) -/

/-- The window of an entry scheduled at s: eligibility time and deadline (R58). -/
def windowOf (sh : Shape) (d : Nat) (s : Int) : Int × Int := (s - (sh.leadPk * d : Nat), s + (sh.gracePk * d : Nat))

/-- A pending entry at a scheduled time with its window (R58, R61). -/
def mkEntry (sh : Shape) (d : Nat) (kind : EntryKind) (index : Nat) (s : Int) (place len : Nat) (arr : Arrival) :
    Entry :=
  { kind := kind, index := index, sched := s, elig := (windowOf sh d s).1, deadline := (windowOf sh d s).2
    place := place, len := len, arrival := arr, done := .pending }

/-- Total length of a list of pieces. -/
def piecesLength (ps : List Piece) : Nat := (ps.map (·.len)).sum

/-- n_f, the video packets of a record (R54). -/
def videoPackets (p len : Nat) : Nat := (len + (p - 1)) / p

/-- The LIVE entries of a record of frame k with anchor a (R54, R55), laid out after the ancillary bytes (R108). -/
def liveEntries (t : Timing) (sh : Shape) (k : Nat) (a : Nat) (r : FrameRecord) : List Entry :=
  let nf := videoPackets sh.p r.len
  (List.range nf).map fun n =>
    mkEntry sh (interval t sh k) .live n (a + n * span t k / nf : Nat) (piecesLength r.ancillary + n * sh.p)
      (if n + 1 = nf then r.len - n * sh.p else sh.p) .waiting

/-- The scheduled time of ancillary item j of af (R56, R57). -/
def ancTime (t : Timing) (sh : Shape) (k a af j : Nat) : Nat :=
  match sh.placement with
  | .lead => a
  | .gap => a + span t k + j * (fullLength t k - span t k) / af

/-- The ANC entries of a record of frame k with anchor a (R54, R56, R57), laid out in list order from 0 (R108). -/
def ancEntries (t : Timing) (sh : Shape) (k : Nat) (a : Nat) (r : FrameRecord) : List Entry :=
  (List.range r.ancillary.length).map fun j =>
    mkEntry sh (interval t sh k) .anc j (ancTime t sh k a r.ancillary.length j)
      (piecesLength (r.ancillary.take j)) ((r.ancillary[j]?.map (·.len)).getD 0) .waiting

/-- Entries of a FRAME group in order of s, video before ancillary, lower index first (R62). Video entries rise in s
and ancillary entries share the anchor (LEAD) or all follow the video (GAP), so the ancillary entries stand behind
the video entries that are not later than the first of them. -/
def frameEntries (t : Timing) (sh : Shape) (k a : Nat) (r : FrameRecord) : List Entry :=
  let live := liveEntries t sh k a r
  let first : Int := (ancTime t sh k a r.ancillary.length 0 : Nat)
  live.takeWhile (fun e => decide (e.sched ≤ first)) ++ ancEntries t sh k a r
    ++ live.dropWhile (fun e => decide (e.sched ≤ first))

/-- The FRAME group of a record chosen for frame k with effective offset v (R54 to R58, R61). -/
def frameGroup (t : Timing) (sh : Shape) (k v : Nat) (r : FrameRecord) (fromStandby : Bool) (blocks : List Nat) :
    Group :=
  { kind := .frame { record := r, fromStandby := fromStandby, nf := videoPackets sh.p r.len
                     af := r.ancillary.length, blocks := blocks.map some, got := [], failed := false, lateness := 0 }
    index := k, fn := frameNumber t k, interval := interval t sh k, template := sh.template
    entries := frameEntries t sh k (frameStart t k + v) r }

/-- The REPEAT group of frame k with effective offset v (R59). -/
def repeatGroup (t : Timing) (sh : Shape) (k v : Nat) : Group :=
  { kind := .repeatMark, index := k, fn := frameNumber t k, interval := interval t sh k, template := sh.template
    entries := [mkEntry sh (interval t sh k) .markRepeat 0 (frameStart t k + v : Nat) 0 0 .arrived] }

/-- An END or closing END group decided at a station time, with the stream's last nominal interval (R60). -/
def endGroup (kind : GroupKind) (t : Timing) (sh : Shape) (g : Glide) (now : Int) : Group :=
  { kind := kind, index := g.index, fn := frameNumber t g.index, interval := g.interval, template := sh.template
    entries := [mkEntry sh g.interval .markEnd 0 now 0 0 .arrived] }

/-! ## Read plans (R108, R109, R120) -/

/-- Cut a run of len bytes at an engine address, going to a place, into reads: none over 4,096 bytes, none across a
multiple of 4,096 of the place (R109). The first argument bounds the number of reads. -/
def cutRun : Nat → BitVec 64 → Nat → Nat → List Read
  | 0, _, _, _ => []
  | fuel + 1, addr, len, place =>
    if len = 0 then []
    else
      let n := min len (Config.readBytes - place % Config.readBytes)
      { addr := addr, len := n, place := place, state := .unissued, attempts := 0 }
        :: cutRun fuel (addr + BitVec.ofNat 64 n) (len - n) (place + n)

/-- The reads of a list of pieces laid one after another from a place (R108, R109). -/
def cutPieces : List Piece → Nat → List Read
  | [], _ => []
  | p :: ps, place => cutRun p.len p.addr p.len place ++ cutPieces ps (place + p.len)

/-- The read plan of a frame record: ancillary items in order, then segments in order (R109). -/
def framePlan (r : FrameRecord) : List Read := cutPieces (r.ancillary ++ r.segments) 0

/-- Blocks a frame record needs (R118). -/
def blocksNeeded (r : FrameRecord) : Nat :=
  (r.len + piecesLength r.ancillary + (Config.blockBytes - 1)) / Config.blockBytes

/-! ## Bulk packets and blocks (R149) -/

/-- Packets of a bulk record. -/
def bulkPackets (pb total : Nat) : Nat := (total + (pb - 1)) / pb

/-- q, the whole packets of one block. -/
def packetsPerBlock (pb : Nat) : Nat := Config.blockBytes / pb

/-- Blocks of a bulk record. -/
def bulkBlocks (pb total : Nat) : Nat := (bulkPackets pb total + (packetsPerBlock pb - 1)) / packetsPerBlock pb

/-- Bytes of packet i of a bulk record. -/
def bulkPayload (pb total i : Nat) : Nat := min pb (total - i * pb)

/-- The pieces of a segment list that hold n bytes from an offset of the whole. -/
def slicePieces : List Piece → Nat → Nat → List Piece
  | [], _, _ => []
  | p :: ps, off, n =>
    if n = 0 then []
    else if p.len ≤ off then slicePieces ps (off - p.len) n
    else
      let m := min n (p.len - off)
      { addr := p.addr + BitVec.ofNat 64 off, len := m } :: slicePieces ps 0 (n - m)

/-- The read plan of block b of a bulk record: its packets' bytes in record order from block offset 0 (R120, R149). -/
def blockPlan (pb : Nat) (r : BulkRecord) (b : Nat) : List Read :=
  let start := b * packetsPerBlock pb * pb
  cutPieces (slicePieces r.segments start (min (packetsPerBlock pb * pb) (r.total - start))) 0

end Sys2Proof.Machine
end

