-- ==== Sys2Proof/Machine/Operands.lean ====
section
/-!
DEFINITION. The operands of the requests: what the part reads out of request records, stream descriptions, amendment
blocks, channel descriptions and descriptor lists (12.2, 12.2.1), and the range tests on them (R22, R29, R145).
Unlisted bytes are not looked at (R193).
-/

namespace Sys2Proof.Machine

/-- The template whose 10-byte patch block stands at an offset of a byte string, over given template bytes (12.2.1). -/
def parseTemplate (bs : Bytes) (off : Nat) (template : Bytes) : Template :=
  { bytes := template.take (leField bs off 1)
    patch1 := leField bs (off + 1) 1
    base1 := BitVec.ofNat 16 (leField bs (off + 2) 2)
    patch2 := leField bs (off + 4) 1
    base2 := BitVec.ofNat 16 (leField bs (off + 6) 2)
    sumStart := leField bs (off + 5) 1
    sumLast := leField bs (off + 8) 1
    sumAt := leField bs (off + 9) 1 }

/-- The tests on a template: H in range, patches inside the template, the sum range inside it and not ending before
it starts (R22, R145). -/
def templateOk (t : Template) (h : Nat) : Bool :=
  decide (14 ≤ h ∧ h ≤ 96 ∧ t.patch1 + 2 ≤ h ∧ t.patch2 + 2 ≤ h ∧ t.sumAt + 2 ≤ h ∧ t.sumLast < h
    ∧ t.sumStart ≤ t.sumLast)

/-- The mode a code names with its line counts in range (R22). -/
def parseMode (code la lt : Nat) : Option Mode :=
  if code = 1 then some .even
  else if code = 2 ∧ 2 ≤ lt ∧ lt ≤ 4096 ∧ 1 ≤ la ∧ la ≤ lt - 1 then some (.gapped la lt)
  else none

/-- The placement a code names, GAP in GAPPED mode only (R22). -/
def parsePlacement (code : Nat) (m : Mode) : Option Placement :=
  if code = 1 then some .lead
  else
    match m with
    | .even => none
    | .gapped _ _ => if code = 2 then some .gap else none

/-- The range tests on the fields an AMEND may change, judged with a stream's timing (R22, R29 step 5). -/
def shapeOk (t : Timing) (sh : Shape) (h : Nat) : Bool :=
  decide (1 ≤ sh.n ∧ sh.n ≤ 32768 ∧ 64 ≤ sh.p ∧ sh.p ≤ 8192 ∧ sh.aMax ≤ 16)
    && templateOk sh.template h
    && decide (shortestSpan t / sh.n ≠ 0)
    && decide (sh.vStar < shortestFrame t)
    && decide (sh.leadPk ≤ 15 ∧ 1 ≤ sh.gracePk ∧ sh.gracePk ≤ 64)

/-- The range tests on the fields fixed at OPEN (R22). -/
def timingOk (t : Timing) : Bool :=
  decide (1 ≤ t.pn ∧ t.pn ≤ 1000000 ∧ 1 ≤ t.pd ∧ t.pd ≤ 1000000)
    && decide (1000000 * t.pd ≤ t.pn * 1000000000 ∧ t.pn * 1000000000 ≤ 1000000000 * t.pd)
    && decide (50000 ≤ t.fetchLead ∧ t.fetchLead ≤ shortestFrame t)
    && decide (t.epoch < 2 ^ 62)

/-- The range tests on the failover settings (R22). -/
def failoverOk (f : Failover) : Bool :=
  decide (1 ≤ f.switchAfter ∧ f.switchAfter ≤ 8 ∧ f.holdFrames ≤ 600)

/-- A stream description (12.2.1). -/
structure StreamDesc where
  timing : Timing
  failover : Failover
  shape : Shape
deriving DecidableEq, Repr

/-- The H byte of a stream description's patch block. -/
def descHeader (bs : Bytes) : Nat := leField bs 48 1

/-- The stream description a 256-byte string holds, if its mode and placement are of those listed (12.2.1, R22). -/
def parseDesc (bs : Bytes) : Option StreamDesc :=
  match parseMode (leField bs 8 1) (leField bs 10 2) (leField bs 12 2) with
  | none => none
  | some mode =>
    match parsePlacement (leField bs 9 1) mode with
    | none => none
    | some placement =>
      some
        { timing := { pn := leField bs 0 4, pd := leField bs 4 4, mode := mode, epoch := leField bs 32 8
                      fn0 := BitVec.ofNat 32 (leField bs 40 4), fetchLead := leField bs 44 4 }
          failover := { switchAfter := leField bs 21 1, returnAfter := leField bs 22 1
                        holdFrames := leField bs 24 2 }
          shape := { n := leField bs 16 2, p := leField bs 18 2, aMax := leField bs 14 1, placement := placement
                     template := parseTemplate bs 48 ((bs.drop 64).take 96), vStar := leField bs 28 4
                     leadPk := leField bs 15 1, gracePk := leField bs 20 1 } }

/-- The tests of R22 on a stream description taken at a station time, but for the slot field. -/
def descOk (d : StreamDesc) (h tOpen : Nat) : Bool :=
  timingOk d.timing && shapeOk d.timing d.shape h && failoverOk d.failover
    && decide (firstIndex d.timing d.shape.vStar tOpen < 2 ^ 39)

/-- The H byte of an amendment block's patch block (12.2.1). -/
def blockHeader (bs : Bytes) : Nat := leField bs 12 1

/-- The template address of an amendment block (12.2.1). -/
def blockTemplateAddr (bs : Bytes) : BitVec 64 := BitVec.ofNat 64 (leField bs 24 8)

/-- The amended shape of a 64-byte amendment block over template bytes, if its placement suits the mode (12.2.1). -/
def parseAmendment (m : Mode) (bs template : Bytes) : Option Shape :=
  match parsePlacement (leField bs 5 1) m with
  | none => none
  | some placement =>
    some { n := leField bs 0 2, p := leField bs 2 2, aMax := leField bs 4 1, placement := placement
           template := parseTemplate bs 12 template, vStar := leField bs 8 4, leadPk := leField bs 6 1
           gracePk := leField bs 7 1 }

/-- The payload size of a channel description (12.2.1). -/
def channelPb (bs : Bytes) : Nat := leField bs 0 2

/-- The template of a channel description (12.2.1). -/
def channelTemplate (bs : Bytes) : Template := parseTemplate bs 2 ((bs.drop 16).take 96)

/-- The tests on a channel description (R145 step 4). -/
def channelOk (bs : Bytes) : Bool :=
  templateOk (channelTemplate bs) (leField bs 2 1) && decide (1024 ≤ channelPb bs ∧ channelPb bs ≤ 8192)

/-- Entries of a descriptor list: 16 bytes each, an address and a length, bytes 12 to 15 ignored (12.2, R193). -/
def parseList : Nat → Bytes → List Piece
  | 0, _ => []
  | n + 1, bs => { addr := BitVec.ofNat 64 (leField bs 0 8), len := leField bs 8 4 } :: parseList n (bs.drop 16)

/-- SUBMIT: frame number, video length, segment and ancillary counts, list or inline address (12.2). -/
def submitFn (r : Record) : BitVec 32 := recU32 r 8
/-- The video length of a SUBMIT (12.2). -/
def submitLen (r : Record) : Nat := (recU32 r 12).toNat
/-- The segment count of a SUBMIT (12.2). -/
def submitSegs (r : Record) : Nat := (recByte r 16).toNat
/-- The ancillary count of a SUBMIT (12.2). -/
def submitAncs (r : Record) : Nat := (recByte r 17).toNat
/-- The descriptor list address, or the inline segment's address, of a SUBMIT (12.2). -/
def submitAddr (r : Record) : BitVec 64 := recU64 r 24
/-- Length of a SUBMIT's descriptor list (R72). -/
def submitListLen (r : Record) : Nat := 16 * (submitSegs r + submitAncs r)

/-- BULK-POST: total length, segment count, list or inline address (12.2). -/
def postLen (r : Record) : Nat := (recU32 r 8).toNat
/-- The segment count of a BULK-POST (12.2). -/
def postSegs (r : Record) : Nat := (recByte r 12).toNat
/-- The list address, or the inline segment's address, of a BULK-POST (12.2). -/
def postAddr (r : Record) : BitVec 64 := recU64 r 16

/-- How many bytes the parameter read under way asks for, given what the reads before it returned: the description of
OPEN, the block and then the template of AMEND, the lists of SUBMIT and BULK-POST, the channel description of BULK-SETUP
(R21, R29, R72, R145, R147, R175). -/
def parameterLen (r : Record) (got : List Bytes) : Nat :=
  if recKind r = 1 then 256
  else if recKind r = 2 then
    match got with
    | [] => 64
    | bs :: _ => blockHeader bs
  else if recKind r = 6 then submitListLen r
  else if recKind r = 8 then 128
  else if recKind r = 9 then 16 * postSegs r
  else 0

/-- The signed 64-bit value of a TIME-SET (12.2). -/
def timeValue (r : Record) : Int := (recU64 r 16).toInt

end Sys2Proof.Machine
end

