-- ==== Sys2Proof/Machine/Flags.lean ====
section
/-!
DEFINITION. Trap bits, status words, and the management map and link register window as they read (9.1, 12.1, 12.6).
-/

namespace Sys2Proof.Machine

/-! ## Per-link items -/

/-- The other link. -/
def otherLink : Link → Link
  | .A => .B
  | .B => .A

/-- The item of a link. -/
def PerLink.get {α : Type} (p : PerLink α) (l : Link) : α :=
  match l with
  | .A => p.a
  | .B => p.b

/-- Change the item of a link. -/
def PerLink.modify {α : Type} (p : PerLink α) (l : Link) (f : α → α) : PerLink α :=
  match l with
  | .A => { p with a := f p.a }
  | .B => { p with b := f p.b }

/-- Change one item of a fixed-length table. -/
def updAt {α : Type} {n : Nat} (v : Vector α n) (i : Fin n) (f : α → α) : Vector α n := v.set i (f v[i])

/-! ## Traps -/

/-- A device trap's bit position in the map (12.6), which is also its notice code (12.3). -/
def deviceTrapBit : DeviceTrap → Nat
  | .uplinkDown => 0
  | .oversub => 1
  | .timeClamped => 2
  | .poolStarved => 3
  | .cplLost .A => 4
  | .cplLost .B => 5
  | .linkDown .A => 6
  | .linkDown .B => 7
  | .settingsDefaulted => 8
  | .bulkHoldExpired => 9

/-- A per-stream trap's bit position in the REPORT traps byte (12.4). -/
def streamTrapBit : StreamTrap → Nat
  | .lateDrop => 0
  | .miss => 1
  | .switch => 2
  | .fetchFail => 3
  | .orphaned => 4

/-- The notice code of a per-stream trap: 16 plus its bit position (12.3). -/
def streamTrapCode (t : StreamTrap) : Nat := 16 + streamTrapBit t

/-- Whether a device trap is set. -/
def deviceTrapSet (s : State) (t : DeviceTrap) : Bool := s.traps.device.getLsbD (deviceTrapBit t)

/-- Whether a per-stream trap of a slot is set. -/
def streamTrapSet (s : State) (i : Slot) (t : StreamTrap) : Bool := s.traps.stream[i].getLsbD (streamTrapBit t)

/-- The per-stream summary: bit i while any trap of slot i is set (R166). -/
def trapSummary (s : State) : BitVec 32 :=
  (List.finRange 32).foldl (fun (acc : BitVec 32) (i : Slot) => if s.traps.stream[i] = 0#8 then acc else acc ||| (1#32 <<< i.val)) 0

/-! ## Link register window (12.1) -/

/-- The status word of a link (12.1, R171). -/
def linkStatus (s : State) (l : Link) : BitVec 32 :=
  let k := s.links.get l
  (if s.store.ready then 1 else 0) ||| (if k.up then 2 else 0) ||| (if k.fault then 4 else 0)
    ||| (if k.bindError then 8 else 0) ||| (if k.notReady then 16 else 0)
    ||| (if s.clock.holder = some l then 32 else 0)

/-- What a 32-bit read of a link's register window returns, the effect of reading the station-time low half left
aside (12.1, R192). A 64-bit register reads as two halves, the low half first (log 19). -/
def linkRegister (s : State) (l : Link) (offset : Nat) : BitVec 32 :=
  let k := s.links.get l
  if offset = 0x00 then linkStatus s l
  else if offset = 0x04 then if k.up then 1 else 0
  else if offset = 0x08 then k.reqBase.extractLsb' 0 32
  else if offset = 0x0C then k.reqBase.extractLsb' 32 32
  else if offset = 0x10 then k.reqEntries
  else if offset = 0x14 then BitVec.ofNat 32 k.reqTail
  else if offset = 0x18 then BitVec.ofNat 32 k.reqHead
  else if offset = 0x1C then k.cplEntries
  else if offset = 0x20 then k.cplBase.extractLsb' 0 32
  else if offset = 0x24 then k.cplBase.extractLsb' 32 32
  else if offset = 0x28 then BitVec.ofNat 32 k.cplHead
  else if offset = 0x2C then BitVec.ofNat 32 k.cplTail
  else if offset = 0x30 then k.lost
  else if offset = 0x38 then s.clock.time.extractLsb' 0 32
  else if offset = 0x3C then k.latch
  else 0

/-! ## Management map (12.6) -/

/-- The status byte of the map (R187). -/
def mapStatus (s : State) : Byte :=
  (if s.store.ready then 1 else 0) ||| (if s.uplink.tx = .down then 0 else 2) ||| (if s.links.a.up then 4 else 0)
    ||| (if s.links.b.up then 8 else 0) ||| (if s.admission.oversub then 16 else 0)
    ||| (if s.store.busy then 32 else 0)

/-- The settings rows of the map, 0x40 to 0x5F, of a set of settings (12.6). -/
def settingsBytes (t : Settings) : Bytes :=
  leBytes 4 t.rate ++ leBytes 1 t.ceiling ++ leBytes 1 t.lineRate ++ leBytes 1 t.retries ++ [linkCode t.rolePref]
    ++ leBytes 4 t.floor ++ leBytes 4 t.burst ++ leBytes 2 t.holdLimit ++ leBytes 2 t.tripTime
    ++ leBytes 1 t.fbOffset ++ leBytes 1 t.i2c ++ List.replicate 10 0

/-- The byte of a byte string at an index, 0 past its end. -/
def byteAt (bs : Bytes) (i : Nat) : Byte := (bs[i]?).getD 0

/-- The byte of the management map at an address (12.6, R187). -/
def mapByte (s : State) (addr : Nat) : Byte :=
  if addr < 0x08 then byteAt [0x52, 0x4E, 0x02, 0x32, 1, 0, 0, 0] addr
  else if addr = 0x08 then mapStatus s
  else if addr < 0x10 then 0
  else if addr < 0x12 then byteAt (leBytes 2 s.traps.device.toNat) (addr - 0x10)
  else if addr < 0x14 then 0
  else if addr < 0x18 then byteAt (leBytes 4 (trapSummary s).toNat) (addr - 0x14)
  else if addr < 0x1C then byteAt (leBytes 4 s.traps.devCounters.feedbackIgnored.toNat) (addr - 0x18)
  else if addr < 0x20 then byteAt (leBytes 4 s.traps.devCounters.poolStarvations.toNat) (addr - 0x1C)
  else if addr < 0x24 then byteAt (leBytes 4 s.traps.devCounters.bulkRetries.toNat) (addr - 0x20)
  else if addr < 0x28 then byteAt (leBytes 4 s.traps.devCounters.bulkFailures.toNat) (addr - 0x24)
  else if addr < 0x40 then 0
  else if addr < 0x60 then byteAt (settingsBytes s.store.active) (addr - 0x40)
  else 0

/-- The 8 bytes of a map row. -/
def mapRow (s : State) (row : Nat) : Bytes := (List.range 8).map fun i => mapByte s (8 * row + i)

/-! ## Ring geometry -/

/-- A power of two from 16 up to a bound (R172). -/
def ringSize (n bound : Nat) : Bool :=
  ([16, 32, 64, 128, 256, 512, 1024, 2048, 4096] : List Nat).any fun k => k == n && decide (k ≤ bound)

/-- Unconsumed completions of a link (R178). -/
def unconsumed (k : LinkIf) : Nat := (k.cplTail + k.cplEntries.toNat - k.cplHead) % k.cplEntries.toNat

/-- Whether a link's completion ring is full (R178). -/
def ringFull (k : LinkIf) : Bool := unconsumed k == k.cplEntries.toNat - 1

/-! ## Counters (9.3) -/

/-- Add to a 32-bit saturating counter (R167, R168). -/
def satAdd (c : BitVec 32) (n : Nat) : BitVec 32 :=
  if c.toNat + n < 2 ^ 32 then BitVec.ofNat 32 (c.toNat + n) else BitVec.allOnes 32

/-- A number as a 32-bit field that saturates (R82). -/
def sat32 (n : Nat) : BitVec 32 := if n < 2 ^ 32 then BitVec.ofNat 32 n else BitVec.allOnes 32

/-- The greatest-lateness figure after one more lateness (R167). -/
def satMax (c : BitVec 32) (n : Nat) : BitVec 32 := if c.toNat < n then sat32 n else c

/-- Add 1 to a streak that stays at 255 (R90). -/
def streakUp (n : Nat) : Nat := min 255 (n + 1)

end Sys2Proof.Machine
end

