-- ==== Sys2Proof/Machine/Ops.lean ====
section
/-!
DEFINITION. The named operations over the state: updates of one block, the staging bytes, completions and notices
(10.3), traps (9.1), taking a request (10.2), the admission sum (2.4).
-/

namespace Sys2Proof.Machine

/-! ## Updates of one block -/

/-- Change the Station Clock. -/
def modClock (f : Clock → Clock) (s : State) : State := { s with clock := f s.clock }
/-- Change one link interface. -/
def modLink (l : Link) (f : LinkIf → LinkIf) (s : State) : State := { s with links := s.links.modify l f }
/-- Change one stream record. -/
def modStream (i : Slot) (f : StreamRec → StreamRec) (s : State) : State := { s with streams := updAt s.streams i f }
/-- Change one frame queue. -/
def modQueue (l : Link) (i : Slot) (f : List FrameRecord → List FrameRecord) (s : State) : State :=
  { s with queues := s.queues.modify l fun q => updAt q i f }
/-- Change the selector state of one slot. -/
def modSelector (i : Slot) (f : Selector → Selector) (s : State) : State :=
  { s with selectors := updAt s.selectors i f }
/-- Change the Schedule Builder state of one slot. -/
def modSched (i : Slot) (f : Sched → Sched) (s : State) : State := { s with scheds := updAt s.scheds i f }
/-- Change one fetch engine. -/
def modEngine (l : Link) (f : FetchEngine → FetchEngine) (s : State) : State :=
  { s with engines := s.engines.modify l f }
/-- Change the Staging Memory. -/
def modStaging (f : Staging → Staging) (s : State) : State := { s with staging := f s.staging }
/-- Change the Uplink Arbiter. -/
def modUplink (f : Uplink → Uplink) (s : State) : State := { s with uplink := f s.uplink }
/-- Change one bulk channel. -/
def modChannel (c : Chan) (f : Channel → Channel) (s : State) : State := { s with channels := updAt s.channels c f }
/-- Change the Trap Unit. -/
def modTraps (f : Traps → Traps) (s : State) : State := { s with traps := f s.traps }
/-- Change the Settings Store. -/
def modStore (f : Store → Store) (s : State) : State := { s with store := f s.store }
/-- Change the Management Port. -/
def modPort (f : Port → Port) (s : State) : State := { s with port := f s.port }
/-- Set the admission sum and condition. -/
def setAdmission (a : Admission) (s : State) : State := { s with admission := a }
/-- Put something out. -/
def emit (o : Output) (s : State) : State := { s with outputs := s.outputs ++ [o] }

/-- Station time as an integer. -/
def nowOf (s : State) : Int := (s.clock.time.toNat : Int)

/-- Both links, A first. -/
def bothLinks : List Link := [.A, .B]

/-- All slots in ascending order. -/
def allSlots : List Slot := List.finRange 32

/-- All channels in ascending order. -/
def allChans : List Chan := List.finRange 4

/-- The queue of a link for a slot. -/
def queueOf (s : State) (l : Link) (i : Slot) : List FrameRecord := (s.queues.get l)[i]

/-- Whether a link is a member of a stream (1.5). -/
def isMember (r : StreamRec) (l : Link) : Bool := r.owner == some l || r.standby == some l

/-! ## Staging bytes (R117): address = block x 16,384 + offset -/

/-- The byte at an address; an unlisted address reads 0 (log 5). -/
def Memory.read : List Host.Cell → Nat → Byte
  | [], _ => 0
  | (k, v) :: m, a => if k = a then v else Memory.read m a

/-- Write one byte, keeping the list in rising order and free of zeros. -/
def Memory.write : List Host.Cell → Nat → Byte → List Host.Cell
  | [], a, b => if b = 0 then [] else [(a, b)]
  | (k, v) :: m, a, b =>
    if a < k then if b = 0 then (k, v) :: m else (a, b) :: (k, v) :: m
    else if a = k then if b = 0 then m else (a, b) :: m
    else (k, v) :: Memory.write m a b

/-- The canonical form: addresses strictly rising, no byte 0. -/
def Memory.wf : List Host.Cell → Bool
  | [] => true
  | [(_, v)] => v != 0
  | (k, v) :: (k', v') :: m => v != 0 && decide (k < k') && Memory.wf ((k', v') :: m)

/-- Write a run of bytes from an address on. -/
def Memory.writeRun : List Host.Cell → Nat → Bytes → List Host.Cell
  | m, _, [] => m
  | m, a, b :: bs => Memory.writeRun (Memory.write m a b) (a + 1) bs

/-- Write bytes at an offset of a pool block. -/
def writeBlock (block off : Nat) (bs : Bytes) (s : State) : State :=
  modStaging (fun g => { g with mem := Memory.writeRun g.mem (block * Config.blockBytes + off) bs }) s

/-- Read bytes of a layout over an ordered list of blocks (R108); a released block reads 0. -/
def readLayout (m : List Host.Cell) (blocks : List (Option Nat)) (place len : Nat) : Bytes :=
  (List.range len).map fun i =>
    match blocks[(place + i) / Config.blockBytes]? with
    | some (some b) => Memory.read m (b * Config.blockBytes + (place + i) % Config.blockBytes)
    | _ => 0

/-- Take n blocks from the free list (R118, R120). -/
def takeBlocks (n : Nat) (s : State) : State := modStaging (fun g => { g with free := g.free.drop n }) s

/-- Give blocks back to the free list (R119, R120). -/
def giveBlocks (bs : List Nat) (s : State) : State := modStaging (fun g => { g with free := g.free ++ bs }) s

/-! ## Completions (R177 to R179) and device traps (R161, R162, R164) -/

/-- A RESULT with the fields every RESULT has; the others are 0 (R192). -/
def mkResult (st : Status) (unit : Byte) (tag : BitVec 32) : Completion :=
  { kind := .result st, unit := unit, tag := tag, fn := 0, sent := 0, dropped := 0, lateness := 0, reqHead := 0
    b26 := 0, b27 := 0, b28 := 0, b29 := 0 }

/-- A NOTICE of a cause; the fields its cause does not use are 0 (R192). -/
def mkNotice (ca : Cause) (unit : Byte) : Completion :=
  { kind := .notice ca, unit := unit, tag := 0, fn := 0, sent := 0, dropped := 0, lateness := 0, reqHead := 0
    b26 := 0, b27 := 0, b28 := 0, b29 := 0 }

/-- The TRAP notice of a trap code, with the slot byte and the frame number of the event (R164). -/
def trapNotice (code : Nat) (unit : Byte) (fn : BitVec 32) : Completion :=
  { mkNotice .trap unit with tag := BitVec.ofNat 32 code, fn := fn }

/-- Write a completion at the tail of a ring that has room, and send the message interrupt if it is armed
(R177, R179). -/
def ringWrite (l : Link) (c : Completion) (s : State) : State :=
  let k := s.links.get l
  let s := emit (.completion l (k.cplBase + BitVec.ofNat 64 (32 * k.cplTail))
    { c with reqHead := BitVec.ofNat 16 k.reqHead }) s
  let s := modLink l (fun k => { k with cplTail := (k.cplTail + 1) % k.cplEntries.toNat }) s
  match k.irq with
  | .armed => emit (.interrupt l) (modLink l (fun k => { k with irq := .sent }) s)
  | .sent => s

/-- Set a device trap's bit. -/
def setDeviceBit (t : DeviceTrap) (s : State) : State :=
  modTraps (fun u => { u with device := u.device ||| (1#16 <<< deviceTrapBit t) }) s

/-- Count a completion discarded at a full ring (R178). -/
def countLost (l : Link) (s : State) : State := modLink l (fun k => { k with lost := satAdd k.lost 1 }) s

/-- Hand a completion to a link: not written while it is DOWN, discarded and counted at a full ring, else written
(R177, R178). The discard is a cause of CPL_LOST, whose first setting writes a notice on every UP link, which may be
discarded in turn (R164). The first argument bounds that chain: each round but the last sets one of the two traps. -/
def deliver : Nat → Link → Completion → State → State
  | 0, l, c, s =>
    if (s.links.get l).up then if ringFull (s.links.get l) then countLost l s else ringWrite l c s else s
  | n + 1, l, c, s =>
    if (s.links.get l).up then
      if ringFull (s.links.get l) then
        let s := countLost l s
        if deviceTrapSet s (.cplLost l) then s
        else
          let note := trapNotice (deviceTrapBit (.cplLost l)) 255 0
          deliver n .B note (deliver n .A note (setDeviceBit (.cplLost l) s))
      else ringWrite l c s
    else s

/-- Hand a completion to a link. -/
def complete (l : Link) (c : Completion) (s : State) : State := deliver 3 l c s

/-- A report of a cause of a device trap: the first setting writes the notice on every UP link (R161, R164). -/
def raiseDevice (t : DeviceTrap) (s : State) : State :=
  if deviceTrapSet s t then s
  else
    let note := trapNotice (deviceTrapBit t) 255 0
    complete .B note (complete .A note (setDeviceBit t s))

/-- The links a per-stream trap's notice is written on: the members, or both links for a stream with none (R164). -/
def trapLinks (r : StreamRec) : List Link :=
  match r.owner, r.standby with
  | none, none => bothLinks
  | o, b => o.toList ++ b.toList

/-- A report of a cause of a per-stream trap, with the frame number of the event; SWITCH writes no TRAP notice
(R161, R163, R164). -/
def raiseStream (i : Slot) (t : StreamTrap) (fn : BitVec 32) (s : State) : State :=
  if streamTrapSet s i t then s
  else
    let s := modTraps (fun u => { u with stream := updAt u.stream i fun b => b ||| (1#8 <<< streamTrapBit t) }) s
    if t = .switch then s
    else (trapLinks s.streams[i]).foldl
      (fun s l => complete l (trapNotice (streamTrapCode t) (BitVec.ofNat 8 i.val) fn) s) s

/-- Change the counters of a slot (R167). -/
def count (i : Slot) (f : StreamCounters → StreamCounters) (s : State) : State :=
  modTraps (fun u => { u with counters := updAt u.counters i f }) s

/-- Change the device counters (R168). -/
def countDevice (f : DeviceCounters → DeviceCounters) (s : State) : State :=
  modTraps (fun u => { u with devCounters := f u.devCounters }) s

/-! ## Address windows (R180) -/

/-- A range of len bytes from an address lies inside one enabled window of a link. -/
def rangeInside (k : LinkIf) (addr : BitVec 64) (len : Nat) : Bool :=
  k.windows.toList.any fun w =>
    w.enabled && decide (w.base.toNat ≤ addr.toNat ∧ 1 ≤ len ∧ addr.toNat + len ≤ w.limit.toNat + 1)

/-- Every piece of a list lies inside one enabled window of a link. -/
def piecesInside (k : LinkIf) (ps : List Piece) : Bool := ps.all fun p => rangeInside k p.addr p.len

/-! ## Taking requests (R174 to R176) -/

/-- The slot or channel byte of a request's RESULT: the request's own, or 255 where the kind names none (12.3,
log 14). -/
def resultUnit (r : Record) : Byte :=
  if recKind r = 11 ∨ recKind r = 12 ∨ recKind r = 13 ∨ recKind r = 14 then 255
  else if recKind r = 15 ∧ recAction r ≠ 2 then 255
  else if recKind r = 16 ∧ recAction r ≠ 1 then 255
  else recUnit r

/-- Write a request's RESULT on its link (R176). -/
def respond (l : Link) (r : Record) (st : Status) (s : State) : State :=
  complete l (mkResult st (resultUnit r) (recTag r)) s

/-- Write a request's RESULT with a frame number (R72, R79). -/
def respondFn (l : Link) (r : Record) (st : Status) (fn : BitVec 32) (s : State) : State :=
  complete l { mkResult st (resultUnit r) (recTag r) with fn := fn } s

/-- Start a DMA read made in taking a request and its timeout (R174, R175). -/
def startRequestRead (l : Link) (record : Option Record) (got : List Bytes) (addr : BitVec 64) (len : Nat)
    (s : State) : State :=
  emit (.requestRead l addr len)
    (modLink l (fun k => { k with
      request := some { record := record, got := got, expiry := nowOf s + Config.readTimeoutNs } }) s)

/-- While the link is UP, idle and its head differs from its tail, read the entry at the head (R174). -/
def fetchNextRequest (l : Link) (s : State) : State :=
  let k := s.links.get l
  if k.up && k.request.isNone && k.reqHead != k.reqTail then
    startRequestRead l none [] (k.reqBase + BitVec.ofNat 64 (64 * k.reqHead)) 64 s
  else s

/-- The request in progress of a link is this record with these replies, or may still become it (log 11). -/
def requestPending (s : State) (l : Link) (r : Record) (replies : List Bytes) : Bool :=
  (s.links.get l).up &&
    match (s.links.get l).request with
    | none => false
    | some q => (q.record == none || q.record == some r) && q.got == replies.take q.got.length

/-- The request in progress is taken: the head advances past it (R174, log 12). -/
def advanceHead (l : Link) (s : State) : State :=
  modLink l (fun k => { k with request := none, reqHead := (k.reqHead + 1) % k.reqEntries.toNat }) s

/-- Take a request that has no parameter reads: the head advances, the owning block acts, the next entry is read. A
record that is not of this row's kind, or that no link has in progress, changes nothing (log 9, log 13). -/
def takeRequest (row : Bool) (l : Link) (r : Record) (effect : State → State) (s : State) : State :=
  if row && requestPending s l r [] then fetchNextRequest l (effect (advanceHead l s)) else s

/-! ## Admission (R27, R28) -/

/-- What a stream counts in the admission sum. -/
def streamClaim (r : StreamRec) : Nat :=
  if r.state = .closed then 0
  else
    match r.staged with
    | none => r.rate
    | some a => max r.rate a.rate

/-- The admission sum of a table of streams over a bulk floor. -/
def claimSum (streams : Vector StreamRec 32) (floor : Nat) : Nat :=
  floor + (allSlots.map fun i => streamClaim streams[i]).sum

/-- Recompute sum and condition; the condition turning on sets OVERSUB (R27, R28). -/
def recompute (s : State) : State :=
  let sum := claimSum s.streams s.store.active.floor
  let cond := decide (admissionLimit s.store.active < sum)
  let t := setAdmission { sum := sum, oversub := cond } s
  if cond && !s.admission.oversub then raiseDevice .oversub t else t

/-- The admission sum if a slot counted a claim (R24, R29 step 7). -/
def sumWith (s : State) (i : Slot) (claim : Nat) : Nat :=
  claimSum s.streams s.store.active.floor - streamClaim s.streams[i] + claim

/-! ## Notices of membership and role (R15, R42) -/

/-- Write a MEMBERSHIP notice of a slot as it now stands on a link (R42). -/
def membershipNotice (i : Slot) (l : Link) (s : State) : State :=
  let r := s.streams[i]
  complete l { mkNotice .membership (BitVec.ofNat 8 i.val) with
    b26 := stateCode r.state, b27 := linkCode r.owner, b28 := linkCode r.standby
    b29 := roleCode s.selectors[i].preferred } s

/-- Write a ROLE notice naming the present holder on a link (R15). -/
def roleNotice (l : Link) (s : State) : State :=
  complete l { mkNotice .role 255 with b27 := linkCode s.clock.holder } s

end Sys2Proof.Machine
end

