-- ==== Sys2Proof/Machine/Frames.lean ====
section
/-!
DEFINITION. Frame records, departure lists and slots: how a record retires (4.5), how entries are dropped and groups
leave (3.5, 7.5), how blocks are released and jobs abandoned (6.4 to 6.6), how a slot closes (2.2, 2.6).
-/

namespace Sys2Proof.Machine

/-! ## Fetch jobs leaving a FIFO (R107, R115) -/

/-- A job has ended: every read of its plan is done or abandoned (R107). -/
def jobEnded (j : Job) : Bool := j.reads.all fun r => r.state == .done || r.state == .abandoned

/-- Take a job out of a FIFO with its attempts and its waiting retries (R107). -/
def dropJob (id : Nat) (e : FetchEngine) : FetchEngine :=
  { e with jobs := e.jobs.filter (fun j => j.id != id), outstanding := e.outstanding.filter (fun a => a.job != id)
           retry := e.retry.filter (fun r => r.job != id) }

/-- Abandon the job that does some work, if it is in the FIFO (R115). -/
def abandonWork (w : JobWork) (e : FetchEngine) : FetchEngine :=
  match e.jobs.find? (fun j => j.work == w) with
  | none => e
  | some j => dropJob j.id e

/-- Jobs that have ended as done leave the FIFO (R111). -/
def sweepJobs (e : FetchEngine) : FetchEngine := { e with jobs := e.jobs.filter (fun j => !jobEnded j) }

/-- A read of a job goes to one of the given blocks of its layout. -/
def readsInto (gone : List Nat) (j : Job) (idx : Nat) : Bool :=
  match j.reads[idx]? with
  | none => false
  | some r => gone.contains (r.place / Config.blockBytes)

/-- Abandon the reads of a frame's job whose destination blocks have been released (R115, R119). -/
def pruneReads (w : JobWork) (gone : List Nat) (e : FetchEngine) : FetchEngine :=
  match e.jobs.find? (fun j => j.work == w) with
  | none => e
  | some j =>
    sweepJobs
      { e with
        jobs := e.jobs.map fun x => if x.id = j.id then
            { x with reads := x.reads.map fun r =>
                if r.state != .done && gone.contains (r.place / Config.blockBytes) then { r with state := .abandoned }
                else r }
          else x
        outstanding := e.outstanding.filter fun a => !(a.job == j.id && readsInto gone j a.read)
        retry := e.retry.filter fun r => !(r.job == j.id && readsInto gone j r.read) }

/-- A fetch engine emptied of jobs, attempts and retries (R116, R121). Its serial numbers go on, so that a completion of
an attempt from before meets none of a later one (log 31). -/
def emptied (e : FetchEngine) : FetchEngine := { e with jobs := [], outstanding := [], retry := [] }

/-! ## Retiring frame records (R81 to R83, R167) -/

/-- The counter of a retire status rises (R167). -/
def countRetire (st : Status) (c : StreamCounters) : StreamCounters :=
  match st with
  | .sent => { c with framesSent := satAdd c.framesSent 1 }
  | .partialSent => { c with framesPartial := satAdd c.framesPartial 1 }
  | .fetchFailed => { c with framesFetchFailed := satAdd c.framesFetchFailed 1 }
  | .starved => { c with framesStarved := satAdd c.framesStarved 1 }
  | .stale => { c with framesStale := satAdd c.framesStale 1 }
  | .shadowed => { c with framesShadowed := satAdd c.framesShadowed 1 }
  | .tooLong => { c with framesTooLong := satAdd c.framesTooLong 1 }
  | .window => { c with framesWindow := satAdd c.framesWindow 1 }
  | .cancelled => { c with framesCancelled := satAdd c.framesCancelled 1 }
  | .discarded => { c with framesDiscarded := satAdd c.framesDiscarded 1 }
  | _ => c

/-- The RESULT of a SUBMIT whose record retires (R83). -/
def frameResult (i : Slot) (r : FrameRecord) (st : Status) (sent dropped late : Nat) : Completion :=
  { mkResult st (BitVec.ofNat 8 i.val) r.tag with
    fn := r.fn, sent := BitVec.ofNat 32 sent, dropped := BitVec.ofNat 32 dropped, lateness := sat32 late }

/-- A record retires: its status is counted, and its RESULT is written where it is still owed (R83, R167). -/
def retire (i : Slot) (r : FrameRecord) (st : Status) (sent dropped late : Nat) (s : State) : State :=
  let s := count i (countRetire st) s
  if r.owed then complete r.link (frameResult i r st sent dropped late) s else s

/-- QUEUED records retire one after another with zero counts and lateness (R79, R81, R85). -/
def retireAll (i : Slot) (st : Status) (rs : List FrameRecord) (s : State) : State :=
  rs.foldl (fun s r => retire i r st 0 0 0 s) s

/-- Empty a link's queue for a slot, retiring its records DISCARDED in queue order (R85, R86). -/
def discardQueue (l : Link) (i : Slot) (s : State) : State :=
  retireAll i .discarded (queueOf s l i) (modQueue l i (fun _ => []) s)

/-- Empty both queues of a slot (R85). -/
def discardQueues (i : Slot) (s : State) : State := discardQueue .B i (discardQueue .A i s)

/-! ## Departure lists (R61 to R63) -/

/-- The group counts as a held frame position (R61). -/
def isHeldPosition (g : Group) : Bool :=
  match g.kind with
  | .frame _ => true
  | .repeatMark => true
  | _ => false

/-- The group is a closing END (R61). -/
def isClosingEnd (g : Group) : Bool := g.kind == .closingEnd

/-- The entry is pending (R61). -/
def isPending (e : Entry) : Bool := e.done == .pending

/-- A group is done when no entry is pending (R66). -/
def groupDone (g : Group) : Bool := g.entries.all fun e => !isPending e

/-- Pending entries of a group. -/
def pendingIn (g : Group) : Nat := (g.entries.filter isPending).length

/-- Pending entries of a list. -/
def pendingCount (gs : List Group) : Nat := (gs.map pendingIn).sum

/-- The head of a list with its group: the first pending entry in list order (R63). -/
def headOf : List Group → Option (Group × Entry)
  | [] => none
  | g :: gs =>
    match g.entries.find? isPending with
    | some e => some (g, e)
    | none => headOf gs

/-- Change the first pending entry of a run of entries. -/
def updFirst (f : Entry → Entry) : List Entry → List Entry
  | [] => []
  | e :: es => if isPending e then f e :: es else e :: updFirst f es

/-- Change the head of a list and the rest of its group. -/
def updHead (f : Entry → Entry) (fk : GroupKind → GroupKind) : List Group → List Group
  | [] => []
  | g :: gs =>
    if groupDone g then g :: updHead f fk gs
    else { g with entries := updFirst f g.entries, kind := fk g.kind } :: gs

/-- The groups of a slot. -/
def groupsOf (s : State) (i : Slot) : List Group := s.scheds[i].groups

/-- The head of a slot with its group (R63). -/
def slotHead (s : State) (i : Slot) : Option (Group × Entry) := headOf (groupsOf s i)

/-- Change the groups of a slot. -/
def modGroups (i : Slot) (f : List Group → List Group) (s : State) : State :=
  modSched i (fun c => { c with groups := f c.groups }) s

/-- Held frame positions of a slot. -/
def heldCount (s : State) (i : Slot) : Nat := ((groupsOf s i).filter isHeldPosition).length

/-! ## Releasing staging blocks (R119) -/

/-- Block b of a reservation holds bytes of a LIVE or ANC entry that is not yet done. -/
def blockBusy (es : List Entry) (b : Nat) : Bool :=
  es.any fun e => isPending e && (e.kind == .live || e.kind == .anc)
    && decide (e.place / Config.blockBytes ≤ b ∧ b ≤ (e.place + e.len - 1) / Config.blockBytes)

/-- The reservation after the blocks with no pending entry are released. -/
def keepBusy (blocks : List (Option Nat)) (es : List Entry) : List (Option Nat) :=
  blocks.zipIdx.map fun x => if blockBusy es x.2 then x.1 else none

/-- Places in the reservation of the blocks that are released. -/
def goneBlocks (blocks : List (Option Nat)) (es : List Entry) : List Nat :=
  (blocks.zipIdx.filter fun x => x.1.isSome && !blockBusy es x.2).map (·.2)

/-- The pool blocks that are released. -/
def freedBlocks (blocks : List (Option Nat)) (es : List Entry) : List Nat :=
  (blocks.zipIdx.filter fun x => !blockBusy es x.2).filterMap (·.1)

/-- A group whose finished blocks have been released. -/
def releasedGroup (g : Group) : Group :=
  match g.kind with
  | .frame f => { g with kind := .frame { f with blocks := keepBusy f.blocks g.entries } }
  | _ => g

/-- Give back one group's finished blocks and abandon the reads into them. -/
def releaseOf (i : Slot) (g : Group) (s : State) : State :=
  match g.kind with
  | .frame f =>
    modEngine f.record.link (pruneReads (.frame i g.index) (goneBlocks f.blocks g.entries))
      (giveBlocks (freedBlocks f.blocks g.entries) s)
  | _ => s

/-- Release every block of a slot's held frames that no pending entry has bytes in (R119). -/
def releaseBlocks (i : Slot) (s : State) : State :=
  (groupsOf s i).foldl (fun s g => releaseOf i g s) (modGroups i (fun gs => gs.map releasedGroup) s)

/-! ## A slot becomes CLOSED (R18) -/

/-- A slot becomes CLOSED: fields absent, rate out of the sum, selector state initial, glide state absent
(R18, R51, R90). -/
def closeSlot (i : Slot) (s : State) : State :=
  recompute
    (modSched i (fun c => { c with glide := none })
      (modSelector i (fun _ => Selector.initial)
        (modStream i (fun r => { r with
          state := .closed, owner := none, standby := none, rate := 0, holdCount := 0, staged := none
          pendingClose := none, lastSel := none }) s)))

/-- The RESULT of a CLOSE whose answer was deferred, on the link that submitted it (R34). -/
def closeResult (i : Slot) (pc : Option PendingClose) (st : Status) (s : State) : State :=
  match pc with
  | some p => if p.owed then complete p.link (mkResult st (BitVec.ofNat 8 i.val) p.tag) s else s
  | none => s

/-- The END marker of a DRAINING stream is sent or dropped: the slot closes and the CLOSE is answered (R34). -/
def endDone (i : Slot) (s : State) : State := closeResult i s.streams[i].pendingClose .ok (closeSlot i s)

/-- Decide a DRAINING stream's end: append the END marker (R34, R60). -/
def appendEnd (i : Slot) (s : State) : State :=
  match s.scheds[i].glide with
  | none => s
  | some g =>
    modGroups i (fun gs => gs ++ [endGroup .endMark s.streams[i].timing s.streams[i].shape g (nowOf s)]) s

/-! ## Groups leave (R66, R82) -/

/-- Entries of a group that were sent. -/
def sentIn (g : Group) : Nat := (g.entries.filter fun e => e.done == .sent).length

/-- The status of a HELD record whose group leaves (R82). -/
def heldStatus (f : FrameInfo) (g : Group) : Status :=
  if f.failed then .fetchFailed else if sentIn g = g.entries.length then .sent else .partialSent

/-- A HELD record retires as its group leaves: its job is abandoned, its blocks go back, its greatest lateness is
counted, its RESULT is written where owed (R82, R83, R115, R119, R167). -/
def retireHeld (i : Slot) (g : Group) (f : FrameInfo) (s : State) : State :=
  retire i f.record (heldStatus f g) (sentIn g) (g.entries.length - sentIn g) f.lateness
    (count i (fun c => { c with lateness := satMax c.lateness f.lateness })
      (giveBlocks (f.blocks.filterMap id) (modEngine f.record.link (abandonWork (.frame i g.index)) s)))

/-- When the last held frame position of a DRAINING stream has left, its end is decided (R34, R66). -/
def drainCheck (i : Slot) (s : State) : State :=
  if s.streams[i].state = .draining ∧ heldCount s i = 0 then appendEnd i s else s

/-- What a group's leaving hands on (R66). The group is no longer in the list. -/
def leaveGroup (i : Slot) (g : Group) (s : State) : State :=
  match g.kind with
  | .frame f => drainCheck i (retireHeld i g f s)
  | .repeatMark => drainCheck i s
  | .endMark => endDone i s
  | .closingEnd => s

/-- The group whose entries are all done leaves the list (R66). -/
def leaveDone (i : Slot) (s : State) : State :=
  match (groupsOf s i).find? groupDone with
  | none => s
  | some g => leaveGroup i g (modGroups i (fun gs => gs.eraseP groupDone) s)

/-! ## Drops (R132 to R135) -/

/-- A LATE drop while the transmitter is not DOWN starts or restarts the bulk trip (R135). -/
def startTrip (s : State) : State :=
  if s.store.active.tripTime = 0 then s
  else modUplink (fun u => { u with trip := some (nowOf s + s.store.active.tripTime * 1000000) }) s

/-- m drops of one cause are counted for a slot (R167). -/
def countDrops (cause : DropCause) (m : Nat) (c : StreamCounters) : StreamCounters :=
  match cause with
  | .late => { c with dropsLate := satAdd c.dropsLate m }
  | .down => { c with dropsDown := satAdd c.dropsDown m }
  | .fetch => { c with dropsFetch := satAdd c.dropsFetch m }
  | .closed => { c with dropsClosed := satAdd c.dropsClosed m }

/-- m entries of a group are reported dropped: counted, and for LATE while the transmitter is not DOWN the bulk trip
starts and the stream's LATE_DROP is set; a closing END belongs to the slot (R134, R163, R167, R168). -/
def reportDrops (i : Slot) (g : Group) (cause : DropCause) (m : Nat) (s : State) : State :=
  if m = 0 then s
  else
    let s := if isClosingEnd g then countDevice (fun c => { c with closingDropped := satAdd c.closingDropped m }) s
      else count i (countDrops cause m) s
    if cause = .late ∧ s.uplink.tx ≠ .down then
      let s := startTrip s
      if isClosingEnd g then s else raiseStream i .lateDrop g.fn s
    else s

/-- What follows the head's being marked done: its blocks are released, and its group leaves if it is done
(R66, R119). -/
def afterMark (i : Slot) (s : State) : State := leaveDone i (releaseBlocks i s)

/-- The head of a slot is dropped with a cause; the LATE_DROP notice it may cause stands before the RESULT of the record
whose group it makes leave (R66, R132, R133; the order of the two, which R177 leaves open, is log 27). -/
def dropHead (i : Slot) (cause : DropCause) (s : State) : State :=
  match slotHead s i with
  | none => s
  | some (g, _) =>
    afterMark i (reportDrops i g cause 1
      (modGroups i (fun gs => updHead (fun e => { e with done := .dropped cause }) id gs) s))

/-- The cause of a drop at deadline expiry (R132). -/
def expiryCause (s : State) : DropCause := if s.uplink.tx = .down then .down else .late

/-- A new head is judged at once: dropped FETCH if its payload will not arrive (R133), else dropped at its expiry if
its deadline has passed (R132), and so on down the list (log 25). The first argument bounds the number of drops. -/
def settle : Nat → Slot → State → State
  | 0, _, s => s
  | n + 1, i, s =>
    match slotHead s i with
    | none => s
    | some (_, e) =>
      if e.arrival = .never then settle n i (dropHead i .fetch s)
      else if e.deadline < nowOf s then settle n i (dropHead i (expiryCause s) s)
      else s

/-- Judge the new head of a slot; the bound covers every pending entry and one END marker. -/
def settleHead (i : Slot) (s : State) : State := settle (pendingCount (groupsOf s i) + 2) i s

/-- Judge a slot's head where it is not the head there was before (R63, R65). -/
def judgeHead (before : Option (Group × Entry)) (i : Slot) (s : State) : State :=
  if slotHead s i = before then s else settleHead i s

/-- Drop heads whose payload will not arrive, judging each head that follows (R133). -/
def settleFetch (i : Slot) (s : State) : State :=
  match slotHead s i with
  | none => s
  | some (_, e) => if e.arrival = .never then settleHead i (dropHead i .fetch s) else s

/-- The head's deadline has passed: it is dropped, and each head that follows is judged (R132). -/
def expireHead (i : Slot) (s : State) : State :=
  match slotHead s i with
  | none => s
  | some (_, e) => if e.deadline < nowOf s then settleHead i (dropHead i (expiryCause s) s) else s

/-- Mark every pending entry of a group dropped. -/
def dropEntries (cause : DropCause) (g : Group) : Group :=
  { g with entries := g.entries.map fun e => if isPending e then { e with done := .dropped cause } else e }

/-- A group joins the tail of a slot's list; where the list had no head, the new head is judged (R62, R63). -/
def addGroup (i : Slot) (g : Group) (s : State) : State :=
  judgeHead (slotHead s i) i (modGroups i (fun gs => gs ++ [g]) s)

/-- Where a slot holds two frame positions, the older one is removed, its pending entries dropped LATE; the LATE_DROP
notice stands before the removed record's RESULT (R62, R66, R100; the order of the two is log 27). -/
def removeOlder (i : Slot) (s : State) : State :=
  if heldCount s i < 2 then s
  else
    match (groupsOf s i).find? isHeldPosition with
    | none => s
    | some g =>
      judgeHead (slotHead s i) i (leaveGroup i (dropEntries .late g)
        (reportDrops i g .late (pendingIn g) (modGroups i (fun gs => gs.eraseP isHeldPosition) s)))

/-! ## Ending a stream (R32 to R37, R67) -/

/-- End one group of a stream at once: its pending entries are dropped CLOSED and a HELD record retires
(R67, R82). -/
def endGroupNow (i : Slot) (g : Group) (s : State) : State :=
  let s := reportDrops i g .closed (pendingIn g) s
  match g.kind with
  | .frame f => retireHeld i (dropEntries .closed g) f s
  | _ => s

/-- End a stream's FRAME, REPEAT and END groups at once; closing ENDs of earlier streams stay (R67). -/
def endHeld (i : Slot) (s : State) : State :=
  let gs := (groupsOf s i).filter fun g => !isClosingEnd g
  gs.foldl (fun s g => endGroupNow i g s) (modGroups i (fun gs => gs.filter isClosingEnd) s)

/-- Place the closing END marker at the front, behind closing ENDs that still wait (R37, R60, R63). -/
def placeClosingEnd (i : Slot) (s : State) : State :=
  match s.scheds[i].glide with
  | none => s
  | some g =>
    modGroups i (fun gs => gs.takeWhile isClosingEnd
      ++ endGroup .closingEnd s.streams[i].timing s.streams[i].shape g (nowOf s) :: gs.dropWhile isClosingEnd) s

/-- A stream that has sent frames goes straight to CLOSED: held frames ended, slot closed, closing END placed
(R35, R36, R37, R44, R46). -/
def closeAtOnce (i : Slot) (s : State) : State := closeSlot i (placeClosingEnd i (endHeld i s))

/-- The staged amendment, if any, is answered DISCARDED on its link and removed (R32). -/
def discardAmendment (i : Slot) (s : State) : State :=
  match s.streams[i].staged with
  | none => s
  | some a =>
    complete a.link (mkResult .discarded (BitVec.ofNat 8 i.val) a.tag)
      (recompute (modStream i (fun r => { r with staged := none }) s))

/-- A RUNNING stream becomes DRAINING under a pending CLOSE or under none: amendment and queues discarded, no further
selection event, and the end decided at once if no frame is held (R33, R34, R91). -/
def becomeDraining (i : Slot) (pc : Option PendingClose) (s : State) : State :=
  let s := modSelector i (fun c => { c with due := none })
    (modStream i (fun r => { r with state := .draining, pendingClose := pc }) s)
  let s := discardQueues i (discardAmendment i s)
  if heldCount s i = 0 then judgeHead (slotHead s i) i (appendEnd i s) else s

end Sys2Proof.Machine
end

