-- ==== Sys2Proof/Machine/Bulk.lean ====
section
/-!
DEFINITION. The bulk channels (08_bulk_transfer_and_studio_feedback.md): offers, early ends, results, holds.
-/

namespace Sys2Proof.Machine

/-- Every byte of a run has been written by done reads (R112). -/
def covered (got : List (Nat × Nat)) (off len : Nat) : Bool :=
  (List.range len).all fun i => got.any fun x => decide (x.1 ≤ off + i ∧ off + i < x.1 + x.2)

/-- Packets of a record on its channel, 0 while the channel is UNCONFIGURED (R148, R149). -/
def packetCount (ch : Channel) (r : BulkRecord) : Nat :=
  match ch.config with
  | some cfg => bulkPackets cfg.pb r.total
  | none => 0

/-- The next packet of a channel's active record is ready (R150). -/
def packetReady (ch : Channel) (cfg : ChannelConfig) (r : BulkRecord) : Bool :=
  match ch.blocks.find? (fun b => b.number == r.sent / packetsPerBlock cfg.pb) with
  | some b => covered b.got (r.sent % packetsPerBlock cfg.pb * cfg.pb) (bulkPayload cfg.pb r.total r.sent)
  | none => false

/-- What a channel offers the arbiter (R151): the packet's or marker's shim fields, payload length, wire length. -/
structure Offer where
  marker : Bool
  tag : BitVec 32
  index : Nat
  count : Nat
  payload : Nat
  wire : Nat
deriving DecidableEq, Repr

/-- The offer of a channel: its abandon marker first, else its active record's next packet if ready (R151). -/
def offerOf (ch : Channel) : Option Offer :=
  match ch.config, ch.hold with
  | some cfg, .released =>
    match ch.abandon with
    | some a => some { marker := true, tag := a.tag, index := a.index, count := a.count, payload := 0
                       wire := wireLength (headerLength cfg.template) 0 }
    | none =>
      match ch.queue with
      | [] => none
      | r :: _ =>
        if packetReady ch cfg r then
          some { marker := false, tag := r.tag, index := r.sent, count := bulkPackets cfg.pb r.total
                 payload := bulkPayload cfg.pb r.total r.sent
                 wire := wireLength (headerLength cfg.template) (bulkPayload cfg.pb r.total r.sent) }
        else none
  | _, _ => none

/-- A job reads for a channel. -/
def isBulkJobOf (c : Chan) (j : Job) : Bool :=
  match j.work with
  | .bulk d _ => d == c
  | .frame _ _ => false

/-- A job is a bulk job. -/
def isBulkJob (j : Job) : Bool :=
  match j.work with
  | .bulk _ _ => true
  | .frame _ _ => false

/-- Abandon every job of a channel (R153). -/
def abandonChannelJobs (c : Chan) (e : FetchEngine) : FetchEngine :=
  (e.jobs.filter (isBulkJobOf c)).foldl (fun e j => dropJob j.id e) e

/-- The RESULT of a bulk record on its link where it is still owed: packets started and packets dropped (R151, R152,
R154, R160). -/
def bulkResult (c : Chan) (dropped : BitVec 32) (st : Status) (r : BulkRecord) (s : State) : State :=
  if r.owed then
    complete r.link { mkResult st (BitVec.ofNat 8 c.val) r.tag with
      sent := BitVec.ofNat 32 r.sent, dropped := dropped } s
  else s

/-- The packets of a record that have not started (R152). -/
def unstarted (ch : Channel) (r : BulkRecord) : BitVec 32 := BitVec.ofNat 32 (packetCount ch r - r.sent)

/-- End a channel's active record early: its jobs abandoned, its blocks given back, an abandon marker placed if any
of its packets has started; the next record becomes active (R153). -/
def endActive (c : Chan) (s : State) : State :=
  match s.channels[c].queue with
  | [] => s
  | r :: _ =>
    let ch := s.channels[c]
    modChannel c (fun ch => { ch with
        queue := ch.queue.tail, blocks := []
        abandon := if 0 < r.sent then some { tag := r.tag, index := r.sent, count := packetCount ch r }
                   else ch.abandon })
      (giveBlocks (ch.blocks.map (·.pool)) (modEngine r.link (abandonChannelJobs c) s))

/-- End every record of a channel that meets a condition (R152, R153, R159). -/
def endMatching (c : Chan) (p : BulkRecord → Bool) (s : State) : State :=
  let s := match s.channels[c].queue with
    | [] => s
    | r :: _ => if p r then endActive c s else s
  modChannel c (fun ch => { ch with queue := ch.queue.filter fun r => !p r }) s

/-- End the oldest record of a channel that meets a condition (R152, R153). -/
def endFirst (c : Chan) (p : BulkRecord → Bool) (s : State) : State :=
  match s.channels[c].queue with
  | [] => s
  | r :: _ => if p r then endActive c s else modChannel c (fun ch => { ch with queue := ch.queue.eraseP p }) s

/-- A bulk job has failed: its record is ended and retires ABORTED with its packets started; the packets-dropped field is
a free value (R154, log 41). -/
def bulkJobFailed (c : Chan) (s : State) : State :=
  let s := countDevice (fun d => { d with bulkFailures := satAdd d.bulkFailures 1 }) s
  match s.channels[c].queue with
  | [] => s
  | r :: _ =>
    bulkResult c (Config.bulkFailureDropped (packetCount s.channels[c] r) r.sent) .aborted r (endActive c s)

/-- A channel's started record packet: packets sent rises, finished blocks go back, and the last packet retires the
record SENT (R151). -/
def advanceRecord (c : Chan) (s : State) : State :=
  match s.channels[c].queue, s.channels[c].config with
  | r :: rest, some cfg =>
    let sent := r.sent + 1
    let total := bulkPackets cfg.pb r.total
    let finished := fun (b : HeldBlock) => decide (min ((b.number + 1) * packetsPerBlock cfg.pb) total ≤ sent)
    let pools := (s.channels[c].blocks.filter finished).map (·.pool)
    let s := giveBlocks pools
      (modChannel c (fun ch => { ch with
        queue := if sent = total then rest else { r with sent := sent } :: rest
        blocks := ch.blocks.filter fun b => !finished b }) s)
    if sent = total then bulkResult c 0 .sent { r with sent := sent } s else s
  | _, _ => s

/-- Accept a HOLD: the channel is held and its timer runs from now (R157). -/
def holdChannel (c : Chan) (s : State) : State :=
  modChannel c (fun ch => { ch with hold := .held (nowOf s + s.store.active.holdLimit * 1000000) }) s

/-- The channel becomes RELEASED and its timer idle (R157, R158). -/
def releaseChannel (c : Chan) (s : State) : State := modChannel c (fun ch => { ch with hold := .released }) s

end Sys2Proof.Machine
end

