-- ==== Sys2Proof/Machine/Arbiter.lean ====
section
/-!
DEFINITION. The Uplink Arbiter (07_uplink_arbitration_and_shaping.md): transmit opportunities, the choice of a head,
bulk round-robin, starting a packet.
-/

namespace Sys2Proof.Machine

/-- The slot's head if it may start now: its eligibility time reached, its payload arrived, its deadline not passed
(R64, R128). -/
def eligibleHead (s : State) (i : Slot) : Option HeadKey :=
  match slotHead s i with
  | none => none
  | some (g, e) =>
    if e.elig ≤ nowOf s ∧ nowOf s ≤ e.deadline ∧ e.arrival = .arrived then
      some { slot := i, index := g.index, closing := isClosingEnd g, entry := e }
    else none

/-- The eligible head with the earliest deadline, the lowest slot first among equals (R128). -/
def bestHead (s : State) : Option HeadKey :=
  allSlots.foldl (fun best i =>
    match eligibleHead s i, best with
    | none, b => b
    | some h, none => some h
    | some h, some b => if h.entry.deadline < b.entry.deadline then some h else some b) none

/-- Wire length of a live-class packet (R126). -/
def entryWire (g : Group) (e : Entry) : Nat := wireLength (headerLength g.template) e.len

/-- The entry stands first in its group's list order (R140). -/
def isFirstEntry (g : Group) (e : Entry) : Bool :=
  match g.entries.head? with
  | some x => x.kind == e.kind && x.index == e.index
  | none => false

/-- The entry stands last in its group's list order (the table of R140). For one LIVE packet with ancillary items under
LEAD placement the prose of R140 names the LIVE packet instead; that the model follows list order there is log 42. -/
def isLastEntry (g : Group) (e : Entry) : Bool :=
  match g.entries.getLast? with
  | some x => x.kind == e.kind && x.index == e.index
  | none => false

/-- Packet kind of an entry (R140). -/
def entryPacketKind : EntryKind → PacketKind
  | .live => .live
  | .anc => .anc
  | _ => .mark

/-- Shim code of an entry (R140, 12.5). -/
def entryCode : EntryKind → Byte
  | .markRepeat => 1
  | .markEnd => 2
  | _ => 0

/-- The shim's count of an entry: n_f for LIVE, a_f for ANC, 0 for MARK (R54, R140). -/
def entryCount (g : Group) (e : Entry) : Nat :=
  match g.kind, e.kind with
  | .frame f, .live => f.nf
  | .frame f, .anc => f.af
  | _, _ => 0

/-- The group's from-standby value (R102, R140). -/
def groupFromStandby (g : Group) : Bool :=
  match g.kind with
  | .frame f => f.fromStandby
  | _ => false

/-- The shim of a live-class packet (R140, R141). -/
def liveShim (s : State) (i : Slot) (g : Group) (e : Entry) : Shim :=
  { kind := entryPacketKind e.kind, first := isFirstEntry g e, last := isLastEntry g e
    fromStandby := groupFromStandby g, abandon := false, unit := BitVec.ofNat 8 i.val, code := entryCode e.kind
    seq := s.uplink.slotSeq[i], index := BitVec.ofNat 16 e.index, count := BitVec.ofNat 16 (entryCount g e)
    frame := g.fn, stamp := BitVec.ofInt 32 e.sched, len := BitVec.ofNat 16 e.len }

/-- The payload of a live-class packet, out of staging (R136). -/
def livePayload (s : State) (g : Group) (e : Entry) : Bytes :=
  match g.kind with
  | .frame f => readLayout s.staging.mem f.blocks e.place e.len
  | _ => []

/-- A live-class packet as it starts (R136). -/
def livePacket (s : State) (i : Slot) (g : Group) (e : Entry) : Packet :=
  { header := patchedHeader g.template e.len, shim := liveShim s i g e, payload := livePayload s g e }

/-- The start of a live-class packet is counted (R167, R168). -/
def countStart (i : Slot) (g : Group) (e : Entry) (s : State) : State :=
  if isClosingEnd g then countDevice (fun d => { d with closingSent := satAdd d.closingSent 1 }) s
  else
    match e.kind with
    | .live => count i (fun c => { c with liveSent := c.liveSent + 1 }) s
    | .anc => count i (fun c => { c with liveSent := c.liveSent + 1 }) s
    | _ => count i (fun c => { c with markersSent := c.markersSent + 1 }) s

/-- Keep a group's greatest lateness (R66). -/
def addLateness (late : Nat) : GroupKind → GroupKind
  | .frame f => .frame { f with lateness := max f.lateness late }
  | k => k

/-- Put a packet on the wire: its cost leaves the credit and the transmitter is SENDING (R136, R137). -/
def putOnWire (p : Packet) (wire : Nat) (s : State) : State :=
  emit (.packet p) (modUplink (fun u => { u with
    tx := .sending, credit := u.credit - packetCost wire
    wire := some { packet := p, wireLen := wire, occupies := occupancy wire u.portRate } }) s)

/-- The head of a slot starts (R136): credit, sequence number, packet, counters, the entry marked sent with its
lateness, and the next head judged. -/
def startLive (i : Slot) (s : State) : State :=
  match slotHead s i with
  | none => s
  | some (g, e) =>
    let t := putOnWire (livePacket s i g e) (entryWire g e) s
    let t := modUplink (fun u => { u with wait := none, slotSeq := updAt u.slotSeq i (· + 1) }) t
    let t := countStart i g e t
    let t := modGroups i (fun gs => updHead (fun e => { e with done := .sent })
      (addLateness (nowOf s - e.sched).toNat) gs) t
    settleHead i (afterMark i t)

/-- The shim of a bulk packet or abandon marker (R140, R141). -/
def bulkShim (s : State) (c : Chan) (o : Offer) : Shim :=
  { kind := .bulk, first := !o.marker && o.index == 0, last := !o.marker && o.index + 1 == o.count
    fromStandby := false, abandon := o.marker, unit := BitVec.ofNat 8 c.val, code := 0, seq := s.uplink.chanSeq[c]
    index := BitVec.ofNat 16 o.index, count := BitVec.ofNat 16 o.count, frame := o.tag
    stamp := BitVec.ofInt 32 (nowOf s), len := BitVec.ofNat 16 o.payload }

/-- The payload of a channel's offered packet, out of its staging block (R136, R149). -/
def bulkPayloadBytes (s : State) (c : Chan) (o : Offer) : Bytes :=
  match s.channels[c].config with
  | none => []
  | some cfg =>
    match s.channels[c].blocks.find? (fun b => b.number == o.index / packetsPerBlock cfg.pb) with
    | none => []
    | some b =>
      readLayout s.staging.mem [some b.pool] (o.index % packetsPerBlock cfg.pb * cfg.pb) o.payload

/-- The header of a channel's packet (R138, R139). -/
def bulkHeader (s : State) (c : Chan) (o : Offer) : Bytes :=
  match s.channels[c].config with
  | none => []
  | some cfg => patchedHeader cfg.template o.payload

/-- A channel's offered packet starts: the pointer becomes the channel, and the Bulk Unit advances (R130, R136,
R151). -/
def startBulk (c : Chan) (o : Offer) (s : State) : State :=
  let p : Packet := { header := bulkHeader s c o, shim := bulkShim s c o
                      payload := if o.marker then [] else bulkPayloadBytes s c o }
  let t := putOnWire p o.wire s
  let t := modUplink (fun u => { u with rr := c, chanSeq := updAt u.chanSeq c (· + 1) }) t
  let t := countDevice (fun d => { d with bulkSent := d.bulkSent + 1 }) t
  if o.marker then modChannel c (fun ch => { ch with abandon := none }) t else advanceRecord c t

/-- Channels in round-robin order, from the one after the pointer (R130). -/
def roundRobin (rr : Chan) : List Chan := [rr + 1, rr + 2, rr + 3, rr]

/-- The offers of the channels in round-robin order (R130). -/
def offers (s : State) : List (Chan × Offer) :=
  (roundRobin s.uplink.rr).filterMap fun c => (offerOf s.channels[c]).map fun o => (c, o)

/-- The smallest cost among offers (R131). -/
def leastCost (os : List (Chan × Offer)) : Option Nat :=
  os.foldl (fun m x =>
    match m with
    | none => some (packetCost x.2.wire)
    | some k => some (min k (packetCost x.2.wire))) none

/-- Bulk at an opportunity with no eligible head: nothing while the trip runs; else the first channel whose offer the
credit covers starts; where offers were skipped and none started, the bulk credit wait (R130, R131). -/
def bulkOpportunity (s : State) : State :=
  if s.uplink.trip.isSome then s
  else
    match (offers s).find? (fun x => decide (packetCost x.2.wire ≤ s.uplink.credit)) with
    | some x => startBulk x.1 x.2 s
    | none => modUplink (fun u => { u with bulkWait := leastCost (offers s) }) s

/-- A transmit opportunity (R124): only while the transmitter is IDLE and, after power-on, once the recall has ended
(R190). The chosen head starts if the credit covers it, else the credit wait holds it; with no eligible head, bulk
(R128 to R131). -/
def opportunity (s : State) : State :=
  if s.uplink.tx = .idle ∧ s.store.ready = true then
    let t := modUplink (fun u => { u with wait := none, bulkWait := none }) s
    match bestHead t with
    | none => bulkOpportunity t
    | some h =>
      match slotHead t h.slot with
      | none => t
      | some (g, e) =>
        let cost := packetCost (entryWire g e)
        if cost ≤ t.uplink.credit then startLive h.slot t
        else modUplink (fun u => { u with wait := some { head := h, cost := cost } }) t
  else s

/-- Some slot has an eligible head that was not its eligible head before (R64, R124). -/
def newEligible (s t : State) : Bool :=
  allSlots.any fun i => (eligibleHead t i).isSome && eligibleHead t i != eligibleHead s i

/-- The head in the credit wait is no longer its slot's eligible head (R129). -/
def waitBroken (t : State) : Bool :=
  match t.uplink.wait with
  | none => false
  | some w => eligibleHead t w.head.slot != some w.head

/-- Some channel offers what it did not offer before (R124, R151). -/
def newOffer (s t : State) : Bool :=
  allChans.any fun c => (offerOf t.channels[c]).isSome && offerOf t.channels[c] != offerOf s.channels[c]

/-- A moment of R124 has come about between two states, the transmitter's own changes and the credit's aside. -/
def opportunityFalls (s t : State) : Bool :=
  newEligible s t || waitBroken t || newOffer s t || (s.uplink.trip.isSome && t.uplink.trip.isNone)
    || t.store.active.rate != s.store.active.rate || t.store.active.burst != s.store.active.burst

/-- End a command that took the part from s to t: the transmit opportunity falls if a moment of R124 came about
(log 34). -/
def finish (s t : State) : State := if opportunityFalls s t then opportunity t else t

end Sys2Proof.Machine
end

