-- ==== Sys2Proof/Machine/Links.lean ====
section
/-!
DEFINITION. A link going DOWN and what every block does about it (10.5, R182 to R184), and taking a request that has
parameter reads (R174, R175).
-/

namespace Sys2Proof.Machine

/-! ## A link goes DOWN (R182, R183) -/

/-- What the interface does itself: unbound, rings empty, request dropped, windows closed, lost count 0; geometry,
interrupt state and latch kept (R182). -/
def interfaceDown (fault : Bool) (k : LinkIf) : LinkIf :=
  { k with
    up := false, fault := k.fault || fault, reqTail := 0, reqHead := 0, cplTail := 0, cplHead := 0, request := none
    windows := Vector.replicate 8 AddrWindow.closed, lost := 0 }

/-- The Station Clock frees the role if the link held it (R13). -/
def freeRole (l : Link) (s : State) : State :=
  modClock (fun c => { c with holder := if c.holder = some l then none else c.holder }) s

/-- The preferred source becomes OWNER and both streaks return to 0 (R38 to R41, R43, R45). -/
def resetPreference (i : Slot) (s : State) : State :=
  modSelector i (fun c => { c with preferred := .owner, miss := 0, present := 0 }) s

/-- A link leaves the fetch-fail marks of a slot (R90). -/
def unmark (l : Link) (i : Slot) (s : State) : State :=
  modSelector i (fun c => { c with marks := c.marks.modify l fun _ => false }) s

/-- A RUNNING stream that has lost its last member is HOLDING (R44). -/
def becomeHolding (i : Slot) (s : State) : State :=
  modStream i (fun r => { r with
    state := .holding, owner := none, standby := none, holdCount := 0, staged := none }) s

/-- A stream loses its owner, and has no standby (R44). -/
def orphan (i : Slot) (s : State) : State :=
  match s.streams[i].state with
  | .running => becomeHolding i s
  | .armed => closeSlot i s
  | .draining => closeAtOnce i s
  | .holding => s
  | .closed => s

/-- The membership of a slot after the loss of a link (R43 to R45). -/
def loseMember (l : Link) (i : Slot) (s : State) : State :=
  if s.streams[i].owner = some l then
    match s.streams[i].standby with
    | some m => resetPreference i (modStream i (fun r => { r with owner := some m, standby := none }) s)
    | none => orphan i s
  else if s.streams[i].standby = some l then
    resetPreference i (modStream i (fun r => { r with standby := none }) s)
  else s

/-- An amendment the link submitted is removed, and a CLOSE it submitted is no longer owed an answer (R32, R34). -/
def forgetRequests (l : Link) (r : StreamRec) : StreamRec :=
  { r with
    staged := r.staged.filter fun a => a.link != l
    pendingClose := r.pendingClose.map fun p => if p.link = l then { p with owed := false } else p }

/-- What the Stream Table and the Source Selector do at a slot (R32, R34, R43 to R45, R90). -/
def slotLosesLink (l : Link) (i : Slot) (s : State) : State :=
  recompute (unmark l i (modStream i (forgetRequests l) (loseMember l i s)))

/-- The result of a HELD record of the link is no longer owed (R84, R87). -/
def disownGroup (l : Link) (g : Group) : Group :=
  match g.kind with
  | .frame f =>
    if f.record.link = l then { g with kind := .frame { f with record := { f.record with owed := false } } } else g
  | _ => g

/-- The entries of a FRAME group that have not arrived will not (R112, R116). -/
def neverArrive (g : Group) : Group :=
  { g with entries := g.entries.map fun e => if e.arrival = .waiting then { e with arrival := .never } else e }

/-- The entries of the link's FRAME groups that have not arrived will not (R116). -/
def loseFetches (l : Link) (g : Group) : Group :=
  match g.kind with
  | .frame f => if f.record.link = l then neverArrive g else g
  | _ => g

/-- The Frame Queues at a slot: the link's queue is emptied without results, its HELD records' results are not owed
(R87). -/
def slotLosesQueue (l : Link) (i : Slot) (s : State) : State :=
  modGroups i (fun gs => gs.map (disownGroup l)) (modQueue l i (fun _ => []) s)

/-- The fetch engine of the link abandons its jobs, attempts and retries (R116). -/
def emptyEngine (l : Link) (s : State) : State :=
  modEngine l emptied s

/-- The notices of one slot on the surviving link: MEMBERSHIP, then ORPHANED if it has just become HOLDING (R183). -/
def lossNotices (l : Link) (before : Vector StreamRec 32) (i : Slot) (s : State) : State :=
  if isMember before[i] l then
    let s := membershipNotice i (otherLink l) s
    if before[i].state = .running ∧ s.streams[i].state = .holding then raiseStream i .orphaned 0 s else s
  else s

/-- What the blocks that keep state for a link do when it goes DOWN, before the notices (R13, R43 to R45, R87, R116,
R159). The RESULTs of frames that end with a closed stream, of all slots, stand before the completions of what settles by
drops, of all slots (log 27). -/
def blocksLoseLink (l : Link) (s : State) : State :=
  let s := freeRole l s
  let s := allSlots.foldl (fun s i => slotLosesQueue l i s) s
  let s := allSlots.foldl (fun s i => slotLosesLink l i s) s
  let s := allSlots.foldl (fun s i => modGroups i (fun gs => gs.map (loseFetches l)) s) (emptyEngine l s)
  let s := allSlots.foldl (fun s i => settleFetch i s) s
  allChans.foldl (fun s c => endMatching c (fun r => r.link == l) s) s

/-- The notices of a loss on the surviving link in the order of R183, and the device trap. R184 says that
after both losses neither LINK trap is announced: the first loss is announced on the link that is then still UP, as R183
item 3 has it, and once both links are DOWN nothing is (log 38). -/
def announceLoss (l : Link) (before s : State) : State :=
  let s := if before.clock.holder = some l then roleNotice (otherLink l) s else s
  let s := allSlots.foldl (fun s i => lossNotices l before.streams i s) s
  raiseDevice (.linkDown l) s

/-- An UP link goes DOWN (R182, R183). -/
def linkDown (l : Link) (fault : Bool) (s : State) : State :=
  finish s (announceLoss l s (blocksLoseLink l (modLink l (interfaceDown fault) s)))

/-! ## Requests with parameter reads (R174, R175) -/

/-- What the owning block makes of a request with the parameters read so far: another read to make, a read that
returned too few bytes, or the effect of its decision. -/
inductive Judgment where
  | read (addr : BitVec 64) (len : Nat)
  | short
  | take (effect : State → State)

/-- The request in progress waits for a read, and these replies hold nothing that it has not taken yet. -/
def readUnderWay (s : State) (l : Link) (r : Record) (replies : List Bytes) : Bool :=
  match (s.links.get l).request with
  | none => false
  | some q => q.record == some r && q.got == replies

/-- The read under way for a request in progress has returned fewer bytes than it asked for (R175). -/
def shortReply (s : State) (l : Link) (r : Record) (replies : List Bytes) : Bool :=
  match (s.links.get l).request with
  | none => false
  | some q =>
    q.record == some r
      && match replies[q.got.length]? with
        | none => false
        | some bs => decide (bs.length < parameterLen r q.got)

/-- Take a request that has parameter reads: while a read is under way it waits for it; a read that returned too few
bytes takes the link DOWN with fault, whatever has become of the stream or channel since the read was made; else the
request is judged, which makes the next read or takes it (R72, R174, R175, log 11). -/
def takeWithReads (row : Bool) (l : Link) (r : Record) (replies : List Bytes) (judge : State → Judgment) (s : State) :
    State :=
  if row && requestPending s l r replies then
    if readUnderWay s l r replies then s
    else if shortReply s l r replies then linkDown l true s
    else
      match judge s with
      | .read addr len => startRequestRead l (some r) replies addr len s
      | .short => linkDown l true s
      | .take effect => fetchNextRequest l (effect (advanceHead l s))
  else s

/-- A request-fetch fault: the read under way has failed (R175). -/
def requestFault (l : Link) (s : State) : State :=
  if (s.links.get l).up && (s.links.get l).request.isSome then linkDown l true s else s

end Sys2Proof.Machine
end

