-- ==== Sys2Proof/Machine/Select.lean ====
section
/-!
DEFINITION. The frame selection event (05_source_selection_and_failover.md, R31, R46, R51 to R53, R91 to R103).
-/

namespace Sys2Proof.Machine

/-! ## Amendments (R31) -/

/-- A staged amendment is applied and answered APPLIED on its link (R31). -/
def applyAmendment (i : Slot) (s : State) : State :=
  match s.streams[i].staged with
  | none => s
  | some a =>
    complete a.link (mkResult .applied (BitVec.ofNat 8 i.val) a.tag)
      (recompute (modStream i (fun r => { r with shape := a.shape, rate := a.rate, staged := none }) s))

/-! ## Stale heads and presence (R92, R93) -/

/-- The queue's leading records that are older than a frame number. -/
def staleRecords (fn : BitVec 32) (q : List FrameRecord) : List FrameRecord := q.takeWhile fun r => newer32 fn r.fn

/-- Heads older than the event's frame retire STALE, in queue order (R92). -/
def retireStale (fn : BitVec 32) (i : Slot) (l : Link) (s : State) : State :=
  retireAll i .stale (staleRecords fn (queueOf s l i))
    (modQueue l i (fun q => q.dropWhile fun r => newer32 fn r.fn) s)

/-- A record is longer than a shape allows (R93 test 3). -/
def recordTooLong (sh : Shape) (r : FrameRecord) : Bool :=
  decide (sh.n * sh.p < r.len) || decide (sh.aMax < r.ancillary.length)
    || r.ancillary.any fun p => decide (sh.p < p.len)

/-- Remove a queue's head. -/
def popQueue (l : Link) (i : Slot) (s : State) : State := modQueue l i (fun q => q.tail) s

/-- The head of a queue if it carries the event's frame number and its link is UP (R93 tests 1 and 2). -/
def headAt (s : State) (l : Link) (i : Slot) (fn : BitVec 32) : Option FrameRecord :=
  if (s.links.get l).up then (queueOf s l i).head?.filter fun r => r.fn == fn else none

/-- A head at the event's frame that fails the length or the window test is removed and retired (R93). -/
def judgePresence (fn : BitVec 32) (i : Slot) (l : Link) (s : State) : State :=
  match headAt s l i fn with
  | none => s
  | some r =>
    if recordTooLong s.streams[i].shape r then retire i r .tooLong 0 0 0 (popQueue l i s)
    else if piecesInside (s.links.get l) (r.segments ++ r.ancillary) then s
    else retire i r .window 0 0 0 (popQueue l i s)

/-- The links that are judged: the owner, then the standby (R93). -/
def memberLinks (r : StreamRec) : List Link := r.owner.toList ++ r.standby.toList

/-- A member link is present once the heads have been judged: its queue's head carries the event's frame number
(R93). -/
def isPresent (s : State) (i : Slot) (fn : BitVec 32) (l : Link) : Bool :=
  isMember s.streams[i] l && (headAt s l i fn).isSome

/-- A present link without a fetch-fail mark (R94). -/
def isClear (s : State) (i : Slot) (fn : BitVec 32) (l : Link) : Bool :=
  isPresent s i fn l && !s.selectors[i].marks.get l

/-! ## Choosing (R95 to R97) -/

/-- The link that holds a role. -/
def roleLink (r : StreamRec) (role : Role) : Option Link :=
  match role with
  | .owner => r.owner
  | .standby => r.standby

/-- The other role. -/
def otherRole : Role → Role
  | .owner => .standby
  | .standby => .owner

/-- What R95 sends for a frame: the preferred source's candidate, clear or marked, the other source's as fill-in, or a
REPEAT marker. -/
inductive Choice where
  | preferred (l : Link) (clear : Bool)
  | fillIn (l : Link)
  | absent
deriving DecidableEq, Repr

/-- The first case of the table of R95 that applies, given the two sources and which links are present and clear. -/
def choose (ps os : Option Link) (present clear : Link → Bool) : Choice :=
  match ps.filter clear, os.filter clear, ps.filter present, os.filter present with
  | some l, _, _, _ => .preferred l true
  | none, some l, _, _ => .fillIn l
  | none, none, some l, _ => .preferred l false
  | none, none, none, some l => .fillIn l
  | none, none, none, none => .absent

/-- The link a choice sends from. -/
def sentLink : Choice → Option Link
  | .preferred l _ => some l
  | .fillIn l => some l
  | .absent => none

/-- The owner-present streak and the return of R97, and whether the preferred source returned. -/
def steady (returnAfter : Nat) (ownerClear : Bool) (c : Selector) : Selector × Bool :=
  match c.preferred with
  | .owner => (c, false)
  | .standby =>
    let p := if ownerClear then streakUp c.present else 0
    if returnAfter ≠ 0 ∧ returnAfter ≤ p then ({ c with preferred := .owner, miss := 0, present := 0 }, true)
    else ({ c with present := p }, false)

/-- The miss streak and the flip of R95 and R96, and whether the preferred source flipped. -/
def afterChoice (switchAfter : Nat) (ch : Choice) (c : Selector) : Selector × Bool :=
  match ch with
  | .preferred _ true => ({ c with miss := 0 }, false)
  | .preferred _ false => ({ c with miss := streakUp c.miss }, false)
  | .absent => ({ c with miss := streakUp c.miss }, false)
  | .fillIn _ =>
    if switchAfter ≤ streakUp c.miss then
      ({ c with preferred := otherRole c.preferred, miss := 0, present := 0 }, true)
    else ({ c with miss := streakUp c.miss }, false)

/-- Why a preference changed (12.3): the reason byte of a SWITCH notice is 1 for MISSES, 2 for RETURN. -/
inductive SwitchReason where
  | misses
  | return
deriving DecidableEq, Repr

/-- The reason byte of a SWITCH notice (12.3). -/
def reasonCode : SwitchReason → Byte
  | .misses => 1
  | .return => 2

/-- The SWITCH notice on the owner link and the standby link (R103). -/
def switchNotices (i : Slot) (fn : BitVec 32) (sent : Option Link) (why : SwitchReason) (s : State) : State :=
  let note := { mkNotice .switch (BitVec.ofNat 8 i.val) with
    fn := fn, b27 := roleCode s.selectors[i].preferred, b28 := linkCode sent, b29 := reasonCode why }
  (memberLinks s.streams[i]).foldl (fun s l => complete l note s) s

/-- R97 at an event: the streak, and the return with its count and notice. -/
def considerReturn (i : Slot) (fn : BitVec 32) (s : State) : State :=
  let clear := (s.streams[i].owner.map (isClear s i fn)).getD false
  let x := steady s.streams[i].failover.returnAfter clear s.selectors[i]
  let t := modSelector i (fun _ => x.1) s
  if x.2 then
    switchNotices i fn s.streams[i].owner .return (count i (fun c => { c with returns := satAdd c.returns 1 }) t)
  else t

/-- The choice of R95 at an event. -/
def choiceAt (s : State) (i : Slot) (fn : BitVec 32) : Choice :=
  let r := s.streams[i]
  let pref := s.selectors[i].preferred
  choose (roleLink r pref) (roleLink r (otherRole pref)) (isPresent s i fn) (isClear s i fn)

/-- The streaks of R95 after a choice, and the flip of R96 with its count, trap and notice. -/
def considerSwitch (i : Slot) (fn : BitVec 32) (ch : Choice) (s : State) : State :=
  let x := afterChoice s.streams[i].failover.switchAfter ch s.selectors[i]
  let t := modSelector i (fun _ => x.1) s
  if x.2 then
    switchNotices i fn (sentLink ch) .misses
      (raiseStream i .switch fn (count i (fun c => { c with flips := satAdd c.flips 1 }) t))
  else t

/-- A present member's candidate that was not sent retires SHADOWED (R98). -/
def shadowUnsent (fn : BitVec 32) (i : Slot) (ch : Choice) (l : Link) (s : State) : State :=
  match headAt s l i fn with
  | none => s
  | some r => if sentLink ch = some l then s else retire i r .shadowed 0 0 0 (popQueue l i s)

/-! ## Handing on (R99 to R102) -/

/-- The frame index of a slot's next event: k_first, or one more than the last (R51). -/
def nextIndex (s : State) (i : Slot) : Nat :=
  match s.scheds[i].glide with
  | none => s.streams[i].kFirst
  | some g => g.index + 1

/-- The glide state takes the event's frame, the last selected frame number is set and the next due time fixed
(R52, R53, R75, R91). -/
def scheduleNext (i : Slot) (k : Nat) (s : State) : State :=
  let r := s.streams[i]
  let g := glideAfter r.timing r.shape s.scheds[i].glide k
  modSelector i (fun c => { c with due := some (dueAfter r.timing r.shape g) })
    (modStream i (fun r => { r with lastSel := some (frameNumber r.timing k) })
      (modSched i (fun c => { c with glide := some g }) s))

/-- The effective offset of the frame whose event has just moved the glide state (R52). -/
def currentOffset (s : State) (i : Slot) : Nat :=
  match s.scheds[i].glide with
  | none => 0
  | some g => g.offset

/-- A REPEAT group for frame k joins the list (R59, R62). -/
def addRepeat (i : Slot) (k : Nat) (s : State) : State :=
  addGroup i (repeatGroup s.streams[i].timing s.streams[i].shape k (currentOffset s i)) s

/-- A fetch job joins the tail of a FIFO (R107, R109). -/
def addJob (w : JobWork) (reads : List Read) (e : FetchEngine) : FetchEngine :=
  { e with jobs := e.jobs ++ [{ id := e.nextJob, work := w, reads := reads }], nextJob := e.nextJob + 1 }

/-- The outcome of an event that sends a record is counted (R99, R167). -/
def countSent (ch : Choice) (c : StreamCounters) : StreamCounters :=
  match ch with
  | .preferred _ _ => { c with sentPreferred := satAdd c.sentPreferred 1 }
  | .fillIn _ => { c with filledIn := satAdd c.filledIn 1 }
  | .absent => { c with repeatedAbsent := satAdd c.repeatedAbsent 1 }

/-- The chosen record becomes HELD: blocks taken, its job created, its FRAME group added (R70, R102, R109, R118). -/
def holdRecord (i : Slot) (k : Nat) (l : Link) (r : FrameRecord) (s : State) : State :=
  let n := blocksNeeded r
  let blocks := s.staging.free.take n
  let st := s.streams[i]
  let g := frameGroup st.timing st.shape k (currentOffset s i) r (st.standby == some l) blocks
  addGroup i g (modEngine l (addJob (.frame i k) (framePlan r)) (takeBlocks n (popQueue l i s)))

/-- The chosen record is STARVED, and a REPEAT marker takes its place (R101, R118). -/
def starveRecord (i : Slot) (k : Nat) (l : Link) (r : FrameRecord) (s : State) : State :=
  let s := retire i r .starved 0 0 0 (popQueue l i s)
  let s := countDevice (fun d => { d with poolStarvations := satAdd d.poolStarvations 1 }) s
  addRepeat i k (raiseDevice .poolStarved s)

/-- The choice is handed on: the older of two held frames is removed first, then the frame is held, STARVED or
repeated; the MISS or POOL_STARVED notice stands before the LATE_DROP notice of an entry that is past its deadline as it is
placed, and what a removal brings before MISS (R99 to R102; log 27). -/
def handOn (i : Slot) (k : Nat) (ch : Choice) (s : State) : State :=
  let fn := frameNumber s.streams[i].timing k
  let s := removeOlder i s
  match (sentLink ch).bind fun l => (headAt s l i fn).map fun r => (l, r) with
  | none => addRepeat i k (raiseStream i .miss fn (count i (countSent .absent) s))
  | some (l, r) =>
    if blocksNeeded r ≤ s.staging.free.length then holdRecord i k l r (count i (countSent ch) s)
    else starveRecord i k l r s

/-- The fetch-fail marks are cleared at the end of every event (R91). -/
def clearMarks (i : Slot) (s : State) : State := modSelector i (fun c => { c with marks := ⟨false, false⟩ }) s

/-- The frame after the event of frame k is out of the range of the schedule arithmetic (R19). -/
def rangeOver (s : State) (i : Slot) : Bool :=
  match s.scheds[i].glide with
  | none => false
  | some g => rangeEnds s.streams[i].timing s.streams[i].shape g

/-- The selection event of frame k of an ARMED or RUNNING stream (R19, R31, R91 to R102). -/
def selectActive (i : Slot) (k : Nat) (s : State) : State :=
  let fn := frameNumber s.streams[i].timing k
  let s := applyAmendment i s
  let s := modStream i (fun r => { r with state := .running }) s
  let s := (memberLinks s.streams[i]).foldl (fun s l => retireStale fn i l s) s
  let s := (memberLinks s.streams[i]).foldl (fun s l => judgePresence fn i l s) s
  let s := considerReturn i fn s
  let ch := choiceAt s i fn
  let s := considerSwitch i fn ch s
  let s := (memberLinks s.streams[i]).foldl (fun s l => shadowUnsent fn i ch l s) s
  let s := clearMarks i (handOn i k ch (scheduleNext i k s))
  if rangeOver s i then becomeDraining i none s else s

/-- A HOLDING stream ends at its event: held frames ended, slot CLOSED, closing END placed, MEMBERSHIP notice on each
UP link (R46, R19). -/
def endHolding (i : Slot) (s : State) : State :=
  membershipNotice i .B (membershipNotice i .A (closeAtOnce i s))

/-- The selection event of frame k of a HOLDING stream (R19, R46, R91). -/
def selectHolding (i : Slot) (k : Nat) (s : State) : State :=
  let s := scheduleNext i k s
  if s.streams[i].holdCount < s.streams[i].failover.holdFrames ∧ rangeOver s i = false then
    let s := modStream i (fun r => { r with holdCount := r.holdCount + 1 }) s
    let s := count i (fun c => { c with repeatedHolding := satAdd c.repeatedHolding 1 }) s
    clearMarks i (addRepeat i k (removeOlder i s))
  else endHolding i s

/-- The due time of a slot has come (R91). -/
def eventDue (s : State) (i : Slot) : Bool :=
  match s.selectors[i].due with
  | none => false
  | some d => decide (d ≤ nowOf s)

/-- The frame selection event of a slot (R91). -/
def selectionEvent (i : Slot) (s : State) : State :=
  if eventDue s i then
    match s.streams[i].state with
    | .armed => selectActive i (nextIndex s i) s
    | .running => selectActive i (nextIndex s i) s
    | .holding => selectHolding i (nextIndex s i) s
    | .draining => s
    | .closed => s
  else s

end Sys2Proof.Machine
end

