-- ==== Sys2Proof/Machine/Fetch.lean ====
section
/-!
DEFINITION. The fetch engines (06_fetch_and_staging_memory.md): issuing reads, completions, failures, and the answer to
a bulk channel's ask for a block (R120, R150).
-/

namespace Sys2Proof.Machine

/-! ## Jobs and reads -/

/-- The job of a FIFO with a serial number. -/
def jobById (e : FetchEngine) (id : Nat) : Option Job := e.jobs.find? fun j => j.id == id

/-- A read of a job of a FIFO. -/
def readOf (e : FetchEngine) (job idx : Nat) : Option (Job × Read) :=
  match jobById e job with
  | none => none
  | some j => (j.reads[idx]?).map fun r => (j, r)

/-- Change one read of one job. -/
def modRead (job idx : Nat) (f : Read → Read) (e : FetchEngine) : FetchEngine :=
  { e with jobs := e.jobs.map fun j => if j.id = job then { j with reads := j.reads.modify idx f } else j }

/-- The attempt with a number, if it is still outstanding (R111). -/
def attemptById (e : FetchEngine) (id : Nat) : Option Attempt := e.outstanding.find? fun a => a.id == id

/-- Take an attempt out of the outstanding reads. -/
def dropAttempt (id : Nat) (e : FetchEngine) : FetchEngine :=
  { e with outstanding := e.outstanding.filter fun a => a.id != id }

/-- The first unissued read of a job. -/
def unissuedIn (j : Job) : Option Nat := j.reads.findIdx? fun r => r.state == .unissued

/-- The next unissued read of the oldest job that still has one (R110). -/
def nextUnissued : List Job → Option RetryRef
  | [] => none
  | j :: js =>
    match unissuedIn j with
    | some idx => some { job := j.id, read := idx }
    | none => nextUnissued js

/-- The read to issue next: the oldest waiting retry, else the next unissued read (R110). -/
def nextRead (e : FetchEngine) : Option RetryRef :=
  match e.retry with
  | r :: _ => some r
  | [] => nextUnissued e.jobs

/-! ## Failures (R112, R114, R154) -/

/-- A group is the FRAME group of a frame index. -/
def isFrameOf (k : Nat) (g : Group) : Bool :=
  match g.kind with
  | .frame _ => g.index == k
  | _ => false

/-- A FRAME group whose fetch has failed: marked, and what has not arrived will not (R112, R114). -/
def failGroup (g : Group) : Group :=
  match g.kind with
  | .frame f => { neverArrive g with kind := .frame { f with failed := true } }
  | _ => g

/-- Mark a link whose fetch failed, for a stream with selection events of which it is still a member (R94). -/
def markFetchFail (l : Link) (i : Slot) (s : State) : State :=
  let st := s.streams[i].state
  if (st = .armed ∨ st = .running ∨ st = .holding) ∧ isMember s.streams[i] l then
    modSelector i (fun c => { c with marks := c.marks.modify l fun _ => true }) s
  else s

/-- A frame job has failed: unarrived entries, mark, trap, and the head; the FETCH_FAIL notice stands before the RESULT
of a record whose group the drops make leave (R94, R112, R114, R133; the order of the two, which R177 leaves open, is
log 27). -/
def frameJobFailed (l : Link) (i : Slot) (k : Nat) (s : State) : State :=
  match (groupsOf s i).find? (isFrameOf k) with
  | none => s
  | some g =>
    let s := modGroups i (fun gs => gs.map fun g => if isFrameOf k g then failGroup g else g) s
    settleFetch i (raiseStream i .fetchFail g.fn (markFetchFail l i s))

/-- A job fails: it leaves the FIFO with its reads and attempts and the failure is reported (R114). -/
def failJob (l : Link) (j : Job) (s : State) : State :=
  let s := modEngine l (dropJob j.id) s
  match j.work with
  | .frame i k => frameJobFailed l i k s
  | .bulk c _ => bulkJobFailed c s

/-- A failed attempt that will be tried again is counted (R114, R167, R168). -/
def countRetry (w : JobWork) (s : State) : State :=
  match w with
  | .frame i _ => count i (fun c => { c with fetchRetries := satAdd c.fetchRetries 1 }) s
  | .bulk _ _ => countDevice (fun d => { d with bulkRetries := satAdd d.bulkRetries 1 }) s

/-- An attempt has failed: it leaves the outstanding reads, and its read waits for a retry or fails its job
(R113, R114). -/
def failAttempt (l : Link) (a : Attempt) (s : State) : State :=
  let s := modEngine l (dropAttempt a.id) s
  match readOf (s.engines.get l) a.job a.read with
  | none => s
  | some (j, r) =>
    if r.attempts < 1 + s.store.active.retries then
      countRetry j.work (modEngine l (fun e =>
        let e := modRead a.job a.read (fun r => { r with state := .retry }) e
        { e with retry := e.retry ++ [{ job := a.job, read := a.read }] }) s)
    else failJob l j s

/-! ## Issue (R110) -/

/-- Issue a read: its attempt count rises and its timeout starts (R110, R113). -/
def startRead (l : Link) (ref : RetryRef) (r : Read) (s : State) : State :=
  let n := (s.engines.get l).nextAttempt
  emit (.dataRead l n r.addr r.len) (modEngine l (fun e =>
    let e := modRead ref.job ref.read (fun r => { r with state := .outstanding, attempts := r.attempts + 1 }) e
    { e with
      outstanding := e.outstanding
        ++ [{ id := n, job := ref.job, read := ref.read, expiry := nowOf s + Config.readTimeoutNs }]
      retry := e.retry.filter fun x => x != ref
      nextAttempt := n + 1 }) s)

/-- Issue the next read of a link if one may be issued; outside the windows its job fails at once (R110). -/
def issueRead (l : Link) (s : State) : State :=
  let e := s.engines.get l
  if (s.links.get l).up && decide (e.outstanding.length < Config.maxOutstanding) then
    match nextRead e with
    | none => s
    | some ref =>
      match readOf e ref.job ref.read with
      | none => s
      | some (j, r) => if rangeInside (s.links.get l) r.addr r.len then startRead l ref r s else failJob l j s
  else s

/-! ## Completion (R111, R112) -/

/-- Entries of a group whose bytes are all in by now have arrived (R112). -/
def markArrived (g : Group) : Group :=
  match g.kind with
  | .frame f =>
    { g with entries := g.entries.map fun e =>
        if e.arrival = .waiting ∧ covered f.got e.place e.len = true then { e with arrival := .arrived } else e }
  | _ => g

/-- A done read's bytes are noted in its FRAME group, and the entries they complete have arrived (R112). -/
def noteRead (r : Read) (g : Group) : Group :=
  match g.kind with
  | .frame f => markArrived { g with kind := .frame { f with got := f.got ++ [(r.place, r.len)] } }
  | _ => g

/-- The pool block that a place of a group's layout lies in (R108). -/
def blockAt (g : Group) (place : Nat) : Option Nat :=
  match g.kind with
  | .frame f => (f.blocks[place / Config.blockBytes]?).join
  | _ => none

/-- Bytes of a done read of a frame job go to staging (R108, R111, R112). -/
def storeFrameRead (i : Slot) (k : Nat) (r : Read) (data : Bytes) (s : State) : State :=
  match (groupsOf s i).find? (isFrameOf k) with
  | none => s
  | some g =>
    match blockAt g r.place with
    | none => s
    | some b =>
      modGroups i (fun gs => gs.map fun g => if isFrameOf k g then noteRead r g else g)
        (writeBlock b (r.place % Config.blockBytes) data s)

/-- Bytes of a done read of a bulk job go to its block (R111, R112, R150). -/
def storeBulkRead (c : Chan) (b : Nat) (r : Read) (data : Bytes) (s : State) : State :=
  match s.channels[c].blocks.find? (fun x => x.number == b) with
  | none => s
  | some h =>
    modChannel c (fun ch => { ch with blocks := ch.blocks.map fun x =>
        if x.number = b then { x with got := x.got ++ [(r.place, r.len)] } else x })
      (writeBlock h.pool r.place data s)

/-- Bytes of a done read go to staging (R111). -/
def storeRead (w : JobWork) (r : Read) (data : Bytes) (s : State) : State :=
  match w with
  | .frame i k => storeFrameRead i k r data s
  | .bulk c b => storeBulkRead c b r data s

/-- A read is done: its bytes are stored, and its job leaves the FIFO if it has ended (R111). -/
def finishRead (l : Link) (a : Attempt) (j : Job) (r : Read) (data : Bytes) (s : State) : State :=
  storeRead j.work r data (modEngine l (fun e =>
    sweepJobs (modRead a.job a.read (fun r => { r with state := .done }) (dropAttempt a.id e))) s)

/-- A completion arrives: discarded if its attempt is no longer current, a failure if bytes are missing, else the read
is done (R111, R113). Of a completion with more bytes than were asked for the first ones asked for are taken
(log 39). -/
def completeRead (l : Link) (attempt : Nat) (data : Bytes) (s : State) : State :=
  match attemptById (s.engines.get l) attempt with
  | none => s
  | some a =>
    match readOf (s.engines.get l) a.job a.read with
    | none => s
    | some (j, r) => if data.length < r.len then failAttempt l a s else finishRead l a j r (data.take r.len) s

/-- The timeout of an attempt falls once station time has reached its expiry (R113). -/
def timeoutRead (l : Link) (attempt : Nat) (s : State) : State :=
  match attemptById (s.engines.get l) attempt with
  | none => s
  | some a => if a.expiry ≤ nowOf s then failAttempt l a s else s

/-- The link returns an error for an attempt (R113). -/
def errorRead (l : Link) (attempt : Nat) (s : State) : State :=
  match attemptById (s.engines.get l) attempt with
  | none => s
  | some a => failAttempt l a s

/-! ## Bulk blocks (R120, R150) -/

/-- The conditions of an ask and of its grant (R107, R120, R150). -/
def mayGrant (s : State) (c : Chan) (cfg : ChannelConfig) (r : BulkRecord) : Bool :=
  decide (r.granted < bulkBlocks cfg.pb r.total)
    && decide (s.channels[c].blocks.length < Config.channelBlocks)
    && decide (Config.bulkReserve < s.staging.free.length)
    && decide (((s.engines.get r.link).jobs.filter isBulkJob).length < Config.bulkJobs)

/-- A grant: one block leaves the free list and a bulk job reads the block's bytes (R120, R150). -/
def grantBlock (c : Chan) (cfg : ChannelConfig) (r : BulkRecord) (pool : Nat) (s : State) : State :=
  modEngine r.link (addJob (.bulk c r.granted) (blockPlan cfg.pb r r.granted))
    (takeBlocks 1
      (modChannel c (fun ch => { ch with
        queue := { r with granted := r.granted + 1 } :: ch.queue.tail
        blocks := ch.blocks ++ [{ number := r.granted, pool := pool, got := [] }] }) s))

/-- The active record of a channel asks for its next block and is granted it or refused (R120, R150, log 30). -/
def askBlock (c : Chan) (s : State) : State :=
  match s.channels[c].config, s.channels[c].queue, s.staging.free with
  | some cfg, r :: _, pool :: _ => if mayGrant s c cfg r then grantBlock c cfg r pool s else s
  | _, _, _ => s

end Sys2Proof.Machine
end

