-- ==== Sys2Proof/Machine/Time.lean ====
section
/-!
DEFINITION. The Station Clock (01_station_time.md): the count, trims, steps, the time role; credit accrual (R125).
-/

namespace Sys2Proof.Machine

/-! ## The count (R2 to R4) and accrual (R125) -/

/-- Credit rises over n nanoseconds of station time, up to the cap (R125); it has no value before the recall ends
(R190, log 3). -/
def accrue (n : Nat) (s : State) : State :=
  if s.store.ready then
    modUplink (fun u => { u with credit := min (creditCap s.store.active) (u.credit + n * s.store.active.rate) }) s
  else s

/-- Station time n nanoseconds later; past 2^64 - 1 a free value (R2, log 7). -/
def laterTime (t : BitVec 64) (n : Nat) : BitVec 64 :=
  if t.toNat + n < 2 ^ 64 then BitVec.ofNat 64 (t.toNat + n) else Config.stationTimePast t.toNat n

/-- Station time advances by n nanoseconds, and credit accrues over them (R2, R125). -/
def advanceTime (n : Nat) (s : State) : State :=
  accrue n (modClock (fun c => { c with time := laterTime c.time n }) s)

/-- One trimmed nanosecond: it counts toward the next absorption while a residual remains, and the ten thousandth is
an absorption (R3, R4). -/
def trimmedNanosecond (s : State) : State :=
  if s.clock.residual = 0 then advanceTime 1 s
  else if s.clock.absorbed + 1 < Config.absorbEvery then
    advanceTime 1 (modClock (fun c => { c with absorbed := c.absorbed + 1 }) s)
  else if 0 < s.clock.residual then
    advanceTime 2 (modClock (fun c => { c with absorbed := 0, residual := c.residual - 1 }) s)
  else advanceTime 0 (modClock (fun c => { c with absorbed := 0, residual := c.residual + 1 }) s)

/-- n trimmed nanoseconds. -/
def trimmedNanoseconds : Nat → State → State
  | 0, s => s
  | n + 1, s => trimmedNanoseconds n (trimmedNanosecond s)

/-- The trim carry with one more nominal nanosecond added (R3). -/
def carryUp (c : Clock) : Nat := (c.carry + 1000000000 + c.trim).toNat

/-- One nominal nanosecond (R3). -/
def nominalTick (s : State) : State :=
  trimmedNanoseconds (carryUp s.clock / 1000000000)
    (modClock (fun c => { c with carry := carryUp c % 1000000000 }) s)

/-- An absorption falls at the next nominal nanosecond (R4). -/
def absorptionDue (s : State) : Bool :=
  decide (s.clock.residual ≠ 0 ∧ Config.absorbEvery ≤ s.clock.absorbed + carryUp s.clock / 1000000000)

/-! ## TIME-SET (R6 to R10) -/

/-- The rate trim a value sets (R7). -/
def clampTrim (v : Int) : Int := max (-Config.maxTrim) (min Config.maxTrim v)

/-- A TIME-SET with action TRIM, or with no known action (R6, R7). -/
def timeTrim (l : Link) (r : Record) (s : State) : State :=
  if recAction r ≠ 1 then respond l r .badRequest s
  else if s.clock.holder ≠ some l then respond l r .notRole s
  else
    let t := modClock (fun c => { c with trim := clampTrim (timeValue r) }) s
    respond l r (if clampTrim (timeValue r) = timeValue r then .ok else .clamped) t

/-- Some stream is ARMED, RUNNING, DRAINING or HOLDING (R8). -/
def anyStreamActive (s : State) : Bool := allSlots.any fun i => s.streams[i].state != .closed

/-- Move the expiries of one fetch engine's attempts (R9, R113). -/
def moveAttempts (x : Int) (e : FetchEngine) : FetchEngine :=
  { e with outstanding := e.outstanding.map fun a => { a with expiry := a.expiry + x } }

/-- Move a held channel's expiry (R9, R158). -/
def moveHold (x : Int) (ch : Channel) : Channel :=
  { ch with hold := match ch.hold with
      | .held e => .held (e + x)
      | .released => .released }

/-- Move the timeout of a request read (R9, R175). -/
def moveRequest (x : Int) (k : LinkIf) : LinkIf :=
  { k with request := k.request.map fun q => { q with expiry := q.expiry + x } }

/-- Every running timer's expiry moves by the amount of an immediate step (R9). -/
def moveTimers (x : Int) (s : State) : State :=
  let s := modUplink (fun u => { u with trip := u.trip.map fun e => e + x }) s
  let s := bothLinks.foldl (fun s l => modLink l (moveRequest x) (modEngine l (moveAttempts x) s)) s
  allChans.foldl (fun s c => modChannel c (moveHold x) s) s

/-- Station time jumps to a target: residual and count clear, timers move, and closing END markers whose deadlines
the step has passed expire (R9, R68, log 26). -/
def jumpTo (target : Int) (s : State) : State :=
  let t := modClock (fun c => { c with time := BitVec.ofNat 64 target.toNat, residual := 0, absorbed := 0 }) s
  allSlots.foldl (fun s i => expireHead i s) (moveTimers (target - nowOf s) t)

/-- An immediate STEP (R9). -/
def stepNow (l : Link) (r : Record) (s : State) : State :=
  let target := nowOf s + timeValue r + s.clock.residual
  if 0 ≤ target ∧ target < 2 ^ 64 then respond l r .ok (jumpTo target s) else respond l r .badRequest s

/-- A step residual within its range (R10). -/
def clampResidual (v : Int) : Int := max (-Config.maxResidual) (min Config.maxResidual v)

/-- An absorbed STEP: the TIME_CLAMPED notice, if the STEP is its first setting, stands before the CLAMPED RESULT on
the submitting link (R10, R4; the order of the two, which R177 leaves open, is log 27). -/
def stepAbsorbed (l : Link) (r : Record) (s : State) : State :=
  if timeValue r = 0 then respond l r .ok s
  else
    let sum := clampResidual (s.clock.residual + timeValue r)
    let t := modClock (fun c => { c with residual := sum, absorbed := if sum = 0 then 0 else c.absorbed }) s
    respond l r .clamped (raiseDevice .timeClamped t)

/-- A TIME-SET with action STEP (R6, R8). -/
def timeStep (l : Link) (r : Record) (s : State) : State :=
  if Config.maxResidual < timeValue r ∨ timeValue r < -Config.maxResidual then respond l r .badRequest s
  else if s.clock.holder ≠ some l then respond l r .notRole s
  else if anyStreamActive s then stepAbsorbed l r s
  else stepNow l r s

/-! ## The time role (R11, R12, R14, R15) -/

/-- The holder changes. -/
def setHolder (h : Option Link) (s : State) : State := modClock (fun c => { c with holder := h }) s

/-- A ROLE with action TAKE, or with no known action; the other link's ROLE notice is handed over before the RESULT
(R11, R15; the order of the two is log 27). -/
def roleRequestTake (l : Link) (r : Record) (s : State) : State :=
  if recAction r ≠ 1 then respond l r .badRequest s
  else if s.clock.holder = some l then respond l r .ok s
  else if s.clock.holder = none then respond l r .ok (roleNotice (otherLink l) (setHolder (some l) s))
  else respond l r .roleHeld s

/-- A ROLE with action RELEASE; the other link's ROLE notice is handed over before the RESULT (R12, R15; the order of
the two is log 27). -/
def roleRequestRelease (l : Link) (r : Record) (s : State) : State :=
  if s.clock.holder = some l then respond l r .ok (roleNotice (otherLink l) (setHolder none s))
  else respond l r .notRole s

/-- The role preference consulted at a bind (R14, R15). -/
def consultPreference (l : Link) (s : State) : State :=
  if s.store.active.rolePref = some l ∧ s.clock.holder = none then
    roleNotice .B (roleNotice .A (setHolder (some l) s))
  else s

end Sys2Proof.Machine
end

