-- ==== Sys2Proof/Machine/Binding.lean ====
section
/-!
DEFINITION. The register window of a link as it is written (R172 to R174, R178, R179, R193, 12.1), reading station
time (R5), WINDOW requests (R181).
-/

namespace Sys2Proof.Machine

/-- The geometry a bind would use is good (R172 test 2). -/
def geometryOk (k : LinkIf) : Bool :=
  decide (k.reqBase.toNat % 64 = 0 ∧ k.cplBase.toNat % 64 = 0) && ringSize k.reqEntries.toNat 1024
    && ringSize k.cplEntries.toNat 4096

/-- What a successful bind does to the interface (R172). -/
def boundInterface (k : LinkIf) : LinkIf :=
  { k with
    up := true, fault := false, bindError := false, notReady := false, reqTail := 0, reqHead := 0, cplTail := 0
    cplHead := 0, irq := .armed, lost := 0 }

/-- A write of 1 to the bind control (R172, R14). -/
def bindLink (l : Link) (s : State) : State :=
  if (s.links.get l).up then s
  else if s.store.ready = false then modLink l (fun k => { k with notReady := true }) s
  else if geometryOk (s.links.get l) = false then modLink l (fun k => { k with bindError := true }) s
  else consultPreference l (modLink l boundInterface s)

/-- A write of 0 to the bind control (R173). -/
def unbindLink (l : Link) (s : State) : State := if (s.links.get l).up then linkDown l false s else s

/-- The PCIe link is lost (R173). -/
def loseLink (l : Link) (s : State) : State := if (s.links.get l).up then linkDown l false s else s

/-- The part's function is reset on a link: DOWN if it was UP, and the geometry registers return to 0 (R173). -/
def resetFunction (l : Link) (s : State) : State :=
  modLink l (fun k => { k with reqBase := 0, reqEntries := 0, cplBase := 0, cplEntries := 0 }) (loseLink l s)

/-- A write of the request tail (R172, R174). -/
def writeTail (l : Link) (v : BitVec 32) (s : State) : State :=
  if (s.links.get l).up then
    fetchNextRequest l (modLink l (fun k => { k with reqTail := v.toNat % k.reqEntries.toNat }) s)
  else s

/-- A write of the completion head, which rearms the interrupt and sends one if completions remain (R178, R179). -/
def writeHead (l : Link) (v : BitVec 32) (s : State) : State :=
  if (s.links.get l).up then
    let t := modLink l (fun k => { k with cplHead := v.toNat % k.cplEntries.toNat, irq := .armed }) s
    if 0 < unconsumed (t.links.get l) then emit (.interrupt l) (modLink l (fun k => { k with irq := .sent }) t) else t
  else s

/-- The low half of a 64-bit register replaced. -/
def setLow (old : BitVec 64) (v : BitVec 32) : BitVec 64 := old.extractLsb' 32 32 ++ v

/-- The high half of a 64-bit register replaced. -/
def setHigh (old : BitVec 64) (v : BitVec 32) : BitVec 64 := v ++ old.extractLsb' 0 32

/-- A geometry register takes a write while the link is DOWN (R172, log 19). -/
def writeGeometry (offset : Nat) (v : BitVec 32) (k : LinkIf) : LinkIf :=
  if k.up then k
  else if offset = 0x08 then { k with reqBase := setLow k.reqBase v }
  else if offset = 0x0C then { k with reqBase := setHigh k.reqBase v }
  else if offset = 0x10 then { k with reqEntries := v }
  else if offset = 0x1C then { k with cplEntries := v }
  else if offset = 0x20 then { k with cplBase := setLow k.cplBase v }
  else if offset = 0x24 then { k with cplBase := setHigh k.cplBase v }
  else k

/-- A write to the bind control: 1 binds, 0 unbinds, another value has no effect (R172, R173, R193). -/
def writeBind (l : Link) (v : BitVec 32) (s : State) : State :=
  if v = 1 then bindLink l s else if v = 0 then unbindLink l s else s

/-- A 32-bit write to a link's register window; read-only and unlisted offsets have no effect (R172, R193, log 19). -/
def writeWindow (l : Link) (offset : Nat) (v : BitVec 32) (s : State) : State :=
  if offset = 0x04 then writeBind l v s
  else if offset = 0x14 then writeTail l v s
  else if offset = 0x28 then writeHead l v s
  else modLink l (writeGeometry offset v) s

/-- A read of the low half of station time latches the high half (R5). -/
def readTimeLow (l : Link) (s : State) : State :=
  emit (.timeLow l (s.clock.time.extractLsb' 0 32))
    (modLink l (fun k => { k with latch := s.clock.time.extractLsb' 32 32 }) s)

/-- A WINDOW request names an index 0 to 7, an enable of 0 or 1, and, where set, a limit not below its base (R181). -/
def windowOk (r : Record) : Bool :=
  decide ((recByte r 8).toNat < 8 ∧ (recByte r 9).toNat < 2)
    && !(recByte r 9 == 1 && decide ((recU64 r 24).toNat < (recU64 r 16).toNat))

/-- The window a WINDOW request gives (R181). -/
def windowGiven (r : Record) : AddrWindow :=
  { base := recU64 r 16, limit := recU64 r 24, enabled := recByte r 9 == 1 }

/-- A WINDOW request (R181). -/
def setWindow (l : Link) (r : Record) (s : State) : State :=
  if windowOk r then
    respond l r .ok (modLink l (fun k => { k with
      windows := k.windows.setIfInBounds (recByte r 8).toNat (windowGiven r) }) s)
  else respond l r .badRequest s

end Sys2Proof.Machine
end

