-- ==== Sys2Proof/Machine/Streams.lean ====
section
/-!
DEFINITION. Stream requests (02_streams_and_admission.md): OPEN, AMEND, CLOSE, STANDBY, ADOPT.
-/

namespace Sys2Proof.Machine

/-! ## OPEN (R21 to R25) -/

/-- The lowest-numbered CLOSED slot (R23). -/
def freeSlot (s : State) : Option Slot := allSlots.find? fun i => s.streams[i].state == .closed

/-- The stream record an OPEN writes (R24, R25). -/
def openedRecord (l : Link) (d : StreamDesc) (tOpen : Nat) : StreamRec :=
  { state := .armed, owner := some l, standby := none, timing := d.timing, failover := d.failover
    kFirst := firstIndex d.timing d.shape.vStar tOpen, shape := d.shape, rate := reservedRate d.timing d.shape
    holdCount := 0, staged := none, pendingClose := none, lastSel := none }

/-- The selector state an OPEN sets (R24, R53, R90). -/
def openedSelector (r : StreamRec) : Selector :=
  { Selector.initial with due := some (firstDue r.timing r.shape.vStar r.kFirst) }

/-- A slot's traps are cleared and its counters return to 0 (R170). -/
def clearSlotTraps (i : Slot) (s : State) : State :=
  modTraps (fun u => { u with
    stream := updAt u.stream i fun _ => 0, counters := updAt u.counters i fun _ => StreamCounters.zero }) s

/-- An OPEN is accepted for a slot (R24, R51, R90, R170). -/
def openSlot (l : Link) (i : Slot) (d : StreamDesc) (s : State) : State :=
  let r := openedRecord l d s.clock.time.toNat
  recompute (clearSlotTraps i (modSched i (fun c => { c with glide := none })
    (modSelector i (fun _ => openedSelector r) (modStream i (fun _ => r) s))))

/-- Admission and acceptance of an OPEN for a slot (R24). -/
def admitOpen (l : Link) (r : Record) (i : Slot) (d : StreamDesc) (s : State) : State :=
  if sumWith s i (reservedRate d.timing d.shape) ≤ admissionLimit s.store.active then
    complete l (mkResult .ok (BitVec.ofNat 8 i.val) (recTag r)) (openSlot l i d s)
  else respond l r .noCapacity s

/-- The slot tests of an OPEN (R23). -/
def placeOpen (l : Link) (r : Record) (d : StreamDesc) (s : State) : State :=
  match slotOf (recUnit r) with
  | some i => if s.streams[i].state = .closed then admitOpen l r i d s else respond l r .wrongState s
  | none =>
    match freeSlot s with
    | some i => admitOpen l r i d s
    | none => respond l r .noSlot s

/-- An OPEN whose description has been read (R22 to R24). -/
def takeOpen (l : Link) (r : Record) (bs : Bytes) (s : State) : State :=
  if (slotOf (recUnit r)).isNone && recUnit r != 255 then respond l r .badRequest s
  else
    match parseDesc bs with
    | none => respond l r .badRequest s
    | some d =>
      if descOk d (descHeader bs) s.clock.time.toNat then placeOpen l r d s else respond l r .badRequest s

/-- An OPEN: the window test, the read of 256 bytes, the decision (R21). -/
def judgeOpen (l : Link) (r : Record) (replies : List Bytes) (s : State) : Judgment :=
  if rangeInside (s.links.get l) (recU64 r 8) 256 then
    match replies with
    | [] => .read (recU64 r 8) 256
    | bs :: _ => if bs.length < 256 then .short else .take (takeOpen l r bs)
  else .take (respond l r .window)

/-! ## AMEND (R29, R30) -/

/-- An AMEND that passes is staged; an earlier one is answered SUPERSEDED on its link before the sum is recomputed
(R30). -/
def stageAmendment (i : Slot) (a : Amendment) (s : State) : State :=
  let t := modStream i (fun r => { r with staged := some a }) s
  match s.streams[i].staged with
  | none => recompute t
  | some old => recompute (complete old.link (mkResult .superseded (BitVec.ofNat 8 i.val) old.tag) t)

/-- Test 7 of R29, and staging. -/
def admitAmend (l : Link) (r : Record) (i : Slot) (sh : Shape) (s : State) : State :=
  let rate := reservedRate s.streams[i].timing sh
  if sumWith s i (max s.streams[i].rate rate) ≤ admissionLimit s.store.active then
    stageAmendment i { shape := sh, rate := rate, tag := recTag r, link := l } s
  else respond l r .noCapacity s

/-- Tests 5 to 7 of R29, the amendment block read. -/
def judgeBlock (l : Link) (r : Record) (i : Slot) (bs : Bytes) (replies : List Bytes) (s : State) : Judgment :=
  let st := s.streams[i]
  match parseAmendment st.timing.mode bs [] with
  | none => .take (respond l r .badRequest)
  | some sh =>
    if shapeOk st.timing sh (blockHeader bs) then
      if rangeInside (s.links.get l) (blockTemplateAddr bs) (blockHeader bs) then
        match replies with
        | [] => .read (blockTemplateAddr bs) (blockHeader bs)
        | t :: _ =>
          if t.length < blockHeader bs then .short
          else .take (admitAmend l r i { sh with template := parseTemplate bs 12 t })
      else .take (respond l r .window)
    else .take (respond l r .badRequest)

/-- An AMEND in the order of R29. -/
def judgeAmend (l : Link) (r : Record) (replies : List Bytes) (s : State) : Judgment :=
  match slotOf (recUnit r) with
  | none => .take (respond l r .badRequest)
  | some i =>
    if s.streams[i].state ≠ .armed ∧ s.streams[i].state ≠ .running then .take (respond l r .wrongState)
    else if s.streams[i].owner ≠ some l then .take (respond l r .notMember)
    else if rangeInside (s.links.get l) (recU64 r 8) 64 then
      match replies with
      | [] => .read (recU64 r 8) 64
      | bs :: rest => if bs.length < 64 then .short else judgeBlock l r i bs rest s
    else .take (respond l r .window)

/-! ## CLOSE (R33 to R36) -/

/-- A CLOSE of an ARMED stream: amendment and queues discarded, slot CLOSED, OK (R33). -/
def closeArmed (l : Link) (r : Record) (i : Slot) (s : State) : State :=
  respond l r .ok (closeSlot i (discardQueues i (discardAmendment i s)))

/-- A CLOSE that ends a stream now: amendment and queues discarded, held frames ended, slot CLOSED, closing END placed,
an earlier CLOSE answered, OK (R35, R36). -/
def closeNow (l : Link) (r : Record) (i : Slot) (s : State) : State :=
  let pc := s.streams[i].pendingClose
  respond l r .ok (closeResult i pc .ok (closeAtOnce i (discardQueues i (discardAmendment i s))))

/-- The pending CLOSE a request makes (R33). -/
def pendingOf (l : Link) (r : Record) : PendingClose := { tag := recTag r, link := l, owed := true }

/-- A graceful CLOSE of a slot (R33, R36). -/
def closeGracefully (l : Link) (r : Record) (i : Slot) (s : State) : State :=
  match s.streams[i].state with
  | .closed => respond l r .wrongState s
  | .draining => respond l r .wrongState s
  | .holding => closeNow l r i s
  | .armed => if s.streams[i].owner = some l then closeArmed l r i s else respond l r .notMember s
  | .running =>
    if s.streams[i].owner = some l then becomeDraining i (some (pendingOf l r)) s else respond l r .notMember s

/-- A CLOSE IMMEDIATE of a slot (R33, R35, R36). -/
def closeImmediately (l : Link) (r : Record) (i : Slot) (s : State) : State :=
  match s.streams[i].state with
  | .closed => respond l r .wrongState s
  | .holding => closeNow l r i s
  | .armed => if s.streams[i].owner = some l then closeArmed l r i s else respond l r .notMember s
  | .running => if s.streams[i].owner = some l then closeNow l r i s else respond l r .notMember s
  | .draining => if s.streams[i].owner = some l then closeNow l r i s else respond l r .notMember s

/-- A CLOSE with the graceful mode, or with no known mode (R33). -/
def requestCloseGraceful (l : Link) (r : Record) (s : State) : State :=
  match slotOf (recUnit r) with
  | none => respond l r .badRequest s
  | some i => if recAction r = 1 then closeGracefully l r i s else respond l r .badRequest s

/-- A CLOSE with the immediate mode (R33, R35). -/
def requestCloseImmediate (l : Link) (r : Record) (s : State) : State :=
  match slotOf (recUnit r) with
  | none => respond l r .badRequest s
  | some i => closeImmediately l r i s

/-! ## STANDBY (R38, R39) -/

/-- A link becomes the standby of a stream that has none (R38). -/
def joinStandby (l : Link) (i : Slot) (s : State) : State :=
  let t := resetPreference i (modStream i (fun r => { r with standby := some l }) s)
  match s.streams[i].owner with
  | some m => membershipNotice i m t
  | none => t

/-- A STANDBY JOIN, or a STANDBY with no known action (R38). -/
def requestJoin (l : Link) (r : Record) (s : State) : State :=
  match slotOf (recUnit r) with
  | none => respond l r .badRequest s
  | some i =>
    if recAction r ≠ 1 then respond l r .badRequest s
    else if s.streams[i].state ≠ .armed ∧ s.streams[i].state ≠ .running then respond l r .wrongState s
    else if s.streams[i].owner = some l then respond l r .wrongState s
    else if s.streams[i].standby = some l then respond l r .ok s
    else respond l r .ok (joinStandby l i s)

/-- The standby leaves: membership, preference, marks, its queue, the notice to the owner; the DISCARDED RESULTs are handed
over before that notice (R39, R86, R90; the order of the two is log 27). -/
def leaveStandby (l : Link) (i : Slot) (s : State) : State :=
  let t := modStream i (fun r => { r with standby := none }) s
  let t := discardQueue l i (unmark l i (resetPreference i t))
  match s.streams[i].owner with
  | some m => membershipNotice i m t
  | none => t

/-- A STANDBY LEAVE (R39). -/
def requestLeave (l : Link) (r : Record) (s : State) : State :=
  match slotOf (recUnit r) with
  | none => respond l r .badRequest s
  | some i =>
    if s.streams[i].state = .closed ∨ s.streams[i].state = .holding then respond l r .wrongState s
    else if s.streams[i].standby = some l then respond l r .ok (leaveStandby l i s)
    else respond l r .notMember s

/-! ## ADOPT (R40, R41) -/

/-- Owner and standby of a RUNNING stream swap (R40). -/
def swapMembers (l : Link) (i : Slot) (s : State) : State :=
  membershipNotice i (otherLink l)
    (resetPreference i (modStream i (fun r => { r with owner := some l, standby := some (otherLink l) }) s))

/-- A HOLDING stream is adopted (R41). -/
def adoptHolding (l : Link) (i : Slot) (s : State) : State :=
  membershipNotice i (otherLink l)
    (resetPreference i (modStream i (fun r => { r with
      state := .running, owner := some l, standby := none, holdCount := 0 }) s))

/-- An ADOPT (R40, R41). -/
def requestAdopt (l : Link) (r : Record) (s : State) : State :=
  match slotOf (recUnit r) with
  | none => respond l r .badRequest s
  | some i =>
    match s.streams[i].state with
    | .closed => respond l r .wrongState s
    | .armed => respond l r .wrongState s
    | .draining => respond l r .wrongState s
    | .running =>
      if s.streams[i].owner = some l then respond l r .wrongState s
      else if s.streams[i].standby = some l then respond l r .ok (swapMembers l i s)
      else respond l r .notMember s
    | .holding => respond l r .ok (adoptHolding l i s)

end Sys2Proof.Machine
end

