-- ==== Sys2Proof/Machine/Submit.lean ====
section
/-!
DEFINITION. Frame requests (04_frame_queues.md): SUBMIT and CANCEL.
-/

namespace Sys2Proof.Machine

/-! ## SUBMIT (R72 to R76) -/

/-- The counts of a SUBMIT are out of range (R73). -/
def submitBad (r : Record) : Bool :=
  !decide (1 ≤ submitSegs r ∧ submitSegs r ≤ 16 ∧ submitAncs r ≤ 16 ∧ submitLen r ≠ 0)
    || (recInline r && !decide (submitSegs r = 1 ∧ submitAncs r = 0))

/-- The frame record a SUBMIT makes (R76). -/
def submitRecord (l : Link) (r : Record) (segs ancs : List Piece) : FrameRecord :=
  { fn := submitFn r, len := submitLen r, segments := segs, ancillary := ancs, tag := recTag r, link := l, owed := true }

/-- Segment and item lengths are bad (R74). -/
def lengthsBad (f : FrameRecord) : Bool :=
  f.segments.any (fun p => p.len == 0) || !decide (piecesLength f.segments = f.len)
    || f.ancillary.any (fun p => p.len == 0)

/-- The next frame number of a stream (R75). -/
def nextNumber (st : StreamRec) : BitVec 32 :=
  match st.state, st.lastSel with
  | .armed, _ => frameNumber st.timing st.kFirst
  | _, some fn => fn + 1
  | _, none => frameNumber st.timing st.kFirst

/-- A frame number is TOO_LATE for a stream (R75). -/
def isTooLate (st : StreamRec) (fn : BitVec 32) : Bool :=
  match st.state, st.lastSel with
  | .armed, _ => newer32 (nextNumber st) fn
  | _, some last => !newer32 fn last
  | _, none => newer32 (nextNumber st) fn

/-- A frame number that is not TOO_LATE is TOO_EARLY (R75). -/
def isTooEarly (st : StreamRec) (fn : BitVec 32) : Bool := decide (64 < (fn - nextNumber st).toNat)

/-- A frame number would not keep a queue's numbers rising (R76). -/
def outOfOrder (q : List FrameRecord) (fn : BitVec 32) : Bool :=
  match q.getLast? with
  | none => false
  | some x => !newer32 fn x.fn

/-- The first test of R74 to R76 that a frame record fails, given its link's interface, its stream and its queue. -/
def submitRefusal (k : LinkIf) (st : StreamRec) (q : List FrameRecord) (f : FrameRecord) : Option Status :=
  if lengthsBad f then some .badRequest
  else if piecesInside k (f.segments ++ f.ancillary) = false then some .window
  else if recordTooLong st.shape f then some .tooLong
  else if isTooLate st f.fn then some .tooLate
  else if isTooEarly st f.fn then some .tooEarly
  else if outOfOrder q f.fn then some .order
  else if Config.frameQueueDepth ≤ q.length then some .queueFull
  else none

/-- A SUBMIT with its lists at hand: refused, or QUEUED with its result deferred (R72, R74 to R76). -/
def takeSubmit (l : Link) (r : Record) (i : Slot) (segs ancs : List Piece) (s : State) : State :=
  let f := submitRecord l r segs ancs
  match submitRefusal (s.links.get l) s.streams[i] (queueOf s l i) f with
  | some st => respondFn l r st (submitFn r) s
  | none => modQueue l i (fun q => q ++ [f]) s

/-- The read of a SUBMIT's descriptor list, and the decision on it (R72). -/
def judgeList (l : Link) (r : Record) (i : Slot) (replies : List Bytes) (s : State) : Judgment :=
  if rangeInside (s.links.get l) (submitAddr r) (submitListLen r) then
    match replies with
    | [] => .read (submitAddr r) (submitListLen r)
    | bs :: _ =>
      if bs.length < submitListLen r then .short
      else .take (takeSubmit l r i (parseList (submitSegs r) bs)
        (parseList (submitAncs r) (bs.drop (16 * submitSegs r))))
  else .take (respondFn l r .window (submitFn r))

/-- A SUBMIT in the order of R72 and R73. -/
def judgeSubmit (l : Link) (r : Record) (replies : List Bytes) (s : State) : Judgment :=
  match slotOf (recUnit r) with
  | none => .take (respondFn l r .badRequest (submitFn r))
  | some i =>
    if submitBad r then .take (respondFn l r .badRequest (submitFn r))
    else if s.streams[i].state ≠ .armed ∧ s.streams[i].state ≠ .running then
      .take (respondFn l r .wrongState (submitFn r))
    else if isMember s.streams[i] l = false then .take (respondFn l r .notMember (submitFn r))
    else if recInline r then .take (takeSubmit l r i [{ addr := submitAddr r, len := submitLen r }] [])
    else judgeList l r i replies s

/-! ## CANCEL (R79) -/

/-- Frame number named by a CANCEL (12.2). -/
def cancelFn (r : Record) : BitVec 32 := recU32 r 8

/-- The records of a link's queue that meet a condition are removed and retired CANCELLED, oldest first; NOT_FOUND if
there are none (R79). -/
def cancelMatching (l : Link) (r : Record) (i : Slot) (p : FrameRecord → Bool) (s : State) : State :=
  let found := (queueOf s l i).filter p
  if found.isEmpty then respondFn l r .notFound (cancelFn r) s
  else
    respondFn l r .ok (cancelFn r)
      (retireAll i .cancelled found (modQueue l i (fun q => q.filter fun f => !p f) s))

/-- A CANCEL with scope ONE, or with no known scope (R79). -/
def requestCancelOne (l : Link) (r : Record) (s : State) : State :=
  match slotOf (recUnit r) with
  | none => respondFn l r .badRequest (cancelFn r) s
  | some i =>
    if recScope r = 1 then cancelMatching l r i (fun f => f.fn == cancelFn r) s
    else respondFn l r .badRequest (cancelFn r) s

/-- A CANCEL with scope THROUGH (R79). -/
def requestCancelThrough (l : Link) (r : Record) (s : State) : State :=
  match slotOf (recUnit r) with
  | none => respondFn l r .badRequest (cancelFn r) s
  | some i => cancelMatching l r i (fun f => f.fn == cancelFn r || newer32 (cancelFn r) f.fn) s

end Sys2Proof.Machine
end

