-- ==== Sys2Proof/Machine/BulkRequests.lean ====
section
/-!
DEFINITION. Bulk requests (08_bulk_transfer_and_studio_feedback.md): BULK-SETUP, BULK-POST, BULK-ABORT; studio
feedback; hold timers.
-/

namespace Sys2Proof.Machine

/-! ## BULK-SETUP (R145, R146) -/

/-- A channel has work: a record in its queue, or a pending abandon (R145 test 2). -/
def channelBusy (ch : Channel) : Bool := !ch.queue.isEmpty || ch.abandon.isSome

/-- A channel is configured and its sequence counter returns to 0 (R145, R141). -/
def configure (c : Chan) (bs : Bytes) (s : State) : State :=
  modUplink (fun u => { u with chanSeq := updAt u.chanSeq c fun _ => 0 })
    (modChannel c (fun ch => { ch with config := some { template := channelTemplate bs, pb := channelPb bs } }) s)

/-- A SET with its description read: the change of offer is a transmit opportunity (R145 test 4, R124). -/
def takeSetup (l : Link) (r : Record) (c : Chan) (bs : Bytes) (s : State) : State :=
  if channelOk bs then opportunity (respond l r .ok (configure c bs s)) else respond l r .badRequest s

/-- A BULK-SETUP SET, or a BULK-SETUP with no known action (R145). -/
def judgeSetup (l : Link) (r : Record) (replies : List Bytes) (s : State) : Judgment :=
  match chanOf (recUnit r) with
  | none => .take (respond l r .badRequest)
  | some c =>
    if recAction r ≠ 1 then .take (respond l r .badRequest)
    else if channelBusy s.channels[c] then .take (respond l r .wrongState)
    else if rangeInside (s.links.get l) (recU64 r 16) 128 then
      match replies with
      | [] => .read (recU64 r 16) 128
      | bs :: _ => if bs.length < 128 then .short else .take (takeSetup l r c bs)
    else .take (respond l r .window)

/-- A BULK-SETUP CLEAR (R146, R124). -/
def requestClear (l : Link) (r : Record) (s : State) : State :=
  match chanOf (recUnit r) with
  | none => respond l r .badRequest s
  | some c =>
    if channelBusy s.channels[c] then respond l r .wrongState s
    else if s.channels[c].config.isNone then respond l r .ok s
    else opportunity (respond l r .ok (modChannel c (fun ch => { ch with config := none }) s))

/-! ## BULK-POST (R147, R148) -/

/-- The counts of a BULK-POST are out of range (R147 test 1). -/
def postBad (r : Record) : Bool :=
  !decide (1 ≤ postSegs r ∧ postSegs r ≤ 16 ∧ postLen r ≠ 0) || (recInline r && !decide (postSegs r = 1))

/-- The bulk record a BULK-POST makes (R148). -/
def postRecord (l : Link) (r : Record) (segs : List Piece) : BulkRecord :=
  { tag := recTag r, segments := segs, total := postLen r, sent := 0, granted := 0, link := l, owed := true }

/-- A BULK-POST with its segments at hand (R147 tests 6 and 7, R148). -/
def takePost (l : Link) (r : Record) (c : Chan) (segs : List Piece) (s : State) : State :=
  if segs.any (fun p => p.len == 0) || !decide (piecesLength segs = postLen r) then respond l r .badRequest s
  else if piecesInside (s.links.get l) segs then
    modChannel c (fun ch => { ch with queue := ch.queue ++ [postRecord l r segs] }) s
  else respond l r .window s

/-- The read of a BULK-POST's descriptor list, and the decision on it (R147). -/
def judgePostList (l : Link) (r : Record) (c : Chan) (replies : List Bytes) (s : State) : Judgment :=
  if rangeInside (s.links.get l) (postAddr r) (16 * postSegs r) then
    match replies with
    | [] => .read (postAddr r) (16 * postSegs r)
    | bs :: _ =>
      if bs.length < 16 * postSegs r then .short else .take (takePost l r c (parseList (postSegs r) bs))
  else .take (respond l r .window)

/-- A BULK-POST in the order of R147. -/
def judgePost (l : Link) (r : Record) (replies : List Bytes) (s : State) : Judgment :=
  match chanOf (recUnit r) with
  | none => .take (respond l r .badRequest)
  | some c =>
    if postBad r then .take (respond l r .badRequest)
    else if Config.maxBulkRecord < postLen r then .take (respond l r .tooLong)
    else if s.channels[c].config.isNone then .take (respond l r .wrongState)
    else if Config.bulkQueueDepth ≤ s.channels[c].queue.length then .take (respond l r .queueFull)
    else if recInline r then .take (takePost l r c [{ addr := postAddr r, len := postLen r }])
    else judgePostList l r c replies s

/-! ## BULK-ABORT (R152, R153) -/

/-- The tag a BULK-ABORT names (12.2). -/
def abortTag (r : Record) : BitVec 32 := recU32 r 8

/-- ABORTED results of records in order, with the packet counts of their channel before they were ended (R152). -/
def abortResults (c : Chan) (ch : Channel) (rs : List BulkRecord) (s : State) : State :=
  rs.foldl (fun s r => bulkResult c (unstarted ch r) .aborted r s) s

/-- A BULK-ABORT with scope ONE, or with no known scope (R152). -/
def requestAbortOne (l : Link) (r : Record) (s : State) : State :=
  match chanOf (recUnit r) with
  | none => respond l r .badRequest s
  | some c =>
    if recScope r ≠ 1 then respond l r .badRequest s
    else
      let p := fun (x : BulkRecord) => x.link == l && x.tag == abortTag r
      match s.channels[c].queue.find? p with
      | none => respond l r .notFound s
      | some x => respond l r .ok (abortResults c s.channels[c] [x] (endFirst c p s))

/-- A BULK-ABORT with scope ALL (R152). -/
def requestAbortAll (l : Link) (r : Record) (s : State) : State :=
  match chanOf (recUnit r) with
  | none => respond l r .badRequest s
  | some c =>
    let p := fun (x : BulkRecord) => x.link == l
    let found := s.channels[c].queue.filter p
    if found.isEmpty then respond l r .notFound s
    else respond l r .ok (abortResults c s.channels[c] found (endMatching c p s))

/-! ## Feedback (R155 to R157) and hold timers (R158) -/

/-- What a received frame is to the Bulk Unit (R155). -/
inductive Feedback where
  | notFeedback
  | malformed
  | valid (c : Chan) (hold : Bool) (seq : BitVec 16)
deriving DecidableEq, Repr

/-- Read the shim at an offset of a frame (R155, R193, 12.5). -/
def parseFeedback (offset : Nat) (frame : Bytes) : Feedback :=
  let shim := frame.drop offset
  if shim.length < Config.shimBytes ∨ byteAt shim 0 ≠ 5 then .notFeedback
  else if byteAt shim 18 ≠ 0 ∨ byteAt shim 19 ≠ 0 then .malformed
  else
    match chanOf (byteAt shim 2) with
    | none => .malformed
    | some c =>
      if byteAt shim 3 = 1 then .valid c true (byteAt shim 4 ++ byteAt shim 5)
      else if byteAt shim 3 = 2 then .valid c false (byteAt shim 4 ++ byteAt shim 5)
      else .malformed

/-- A feedback packet is ignored and counted (R155, R156, R168). -/
def ignoreFeedback (s : State) : State :=
  countDevice (fun d => { d with feedbackIgnored := satAdd d.feedbackIgnored 1 }) s

/-- A feedback packet's sequence is accepted by a channel (R156). -/
def seqAccepted (ch : Channel) (seq : BitVec 16) : Bool :=
  match ch.lastSeq with
  | none => true
  | some last => newer16 seq last

/-- Valid feedback of a channel (R156, R157). -/
def actFeedback (c : Chan) (hold : Bool) (seq : BitVec 16) (s : State) : State :=
  if seqAccepted s.channels[c] seq then
    let s := modChannel c (fun ch => { ch with lastSeq := some seq }) s
    if hold then holdChannel c s else releaseChannel c s
  else ignoreFeedback s

/-- A frame that the port delivers; none is delivered before the recall has ended (R155, R190, log 32). -/
def receiveFrame (frame : Bytes) (s : State) : State :=
  if s.store.ready then
    match parseFeedback s.store.active.fbOffset frame with
    | .notFeedback => s
    | .malformed => ignoreFeedback s
    | .valid c hold seq => actFeedback c hold seq s
  else s

/-- Station time has passed a channel's hold timer: it is released, and BULK_HOLD_EXPIRED is reported (R158, log 23). -/
def expireHold (c : Chan) (s : State) : State :=
  match s.channels[c].hold with
  | .released => s
  | .held e => if e < nowOf s then raiseDevice .bulkHoldExpired (releaseChannel c s) else s

/-- The bulk trip ends at its expiry (R135). -/
def expireTrip (s : State) : State :=
  match s.uplink.trip with
  | none => s
  | some e => if e ≤ nowOf s then modUplink (fun u => { u with trip := none }) s else s

end Sys2Proof.Machine
end

