-- ==== Sys2Proof/Machine/Reports.lean ====
section
/-!
DEFINITION. TRAP-CLEAR and REPORT requests (09_traps_and_counters.md, R165, R169).
-/

namespace Sys2Proof.Machine

/-- The mask of a TRAP-CLEAR (12.2, log 21). -/
def clearMask (r : Record) : BitVec 32 := recU32 r 12

/-- Clear the device traps a mask names (R165). -/
def clearDevice (mask : BitVec 16) (s : State) : State := modTraps (fun u => { u with device := u.device &&& ~~~mask }) s

/-- Clear the per-stream traps a mask names (R165). -/
def clearStream (i : Slot) (mask : BitVec 8) (s : State) : State :=
  modTraps (fun u => { u with stream := updAt u.stream i fun b => b &&& ~~~mask }) s

/-- A TRAP-CLEAR with scope DEVICE, or with no known scope (R165). -/
def requestClearDevice (l : Link) (r : Record) (s : State) : State :=
  if recAction r = 1 ∧ (clearMask r).toNat < 2 ^ 10 then
    respond l r .ok (clearDevice ((clearMask r).setWidth 16) s)
  else respond l r .badRequest s

/-- A TRAP-CLEAR with scope STREAM (R165). -/
def requestClearStream (l : Link) (r : Record) (s : State) : State :=
  match slotOf (recUnit r) with
  | none => respond l r .badRequest s
  | some i =>
    if (clearMask r).toNat < 2 ^ 5 then respond l r .ok (clearStream i ((clearMask r).setWidth 8) s)
    else respond l r .badRequest s

/-- The snapshot of a slot as its REPORT record carries it (R169, 12.4). -/
def streamSnapshot (s : State) (i : Slot) : Bytes :=
  reportStreamBytes i s.streams[i] s.selectors[i] s.traps.stream[i] s.traps.counters[i] s.clock.time

/-- The snapshot of the device as its REPORT record carries it (R169, 12.4). -/
def deviceSnapshot (s : State) : Bytes :=
  reportDeviceBytes s.admission s.clock.holder s.traps.device s.traps.devCounters s.clock.time

/-- Write a record by DMA, let the counters return to 0 where the request asks for it, and answer OK (R169). -/
def answerReport (l : Link) (r : Record) (record : Bytes) (zero : State → State) (s : State) : State :=
  if rangeInside (s.links.get l) (recU64 r 16) 128 then
    let t := emit (.reportWrite l (recU64 r 16) record) s
    respond l r .ok (if recReset r then zero t else t)
  else respond l r .window s

/-- A REPORT with scope STREAM, or with no known scope (R169). -/
def requestReportStream (l : Link) (r : Record) (s : State) : State :=
  match slotOf (recUnit r) with
  | none => respond l r .badRequest s
  | some i =>
    if recAction r = 1 then answerReport l r (streamSnapshot s i) (count i fun _ => StreamCounters.zero) s
    else respond l r .badRequest s

/-- A REPORT with scope DEVICE (R169). -/
def requestReportDevice (l : Link) (r : Record) (s : State) : State :=
  answerReport l r (deviceSnapshot s) (countDevice fun _ => DeviceCounters.zero) s

end Sys2Proof.Machine
end

