-- ==== Sys2Proof/Machine/Reset.lean ====
section
/-!
DEFINITION. Power-on (R2, R16, R18, R185, R189, R190), the end of the recall (R190), and the pacing reset (R191 and the
reset rule of each block).
-/

namespace Sys2Proof.Machine

/-! ## Settings and their tests (11.2, R188, R190) -/

/-- The eleven settings. -/
inductive SettingId where
  | rate
  | ceiling
  | lineRate
  | retries
  | rolePref
  | floor
  | burst
  | holdLimit
  | tripTime
  | fbOffset
  | i2c
deriving DecidableEq, Repr

/-- All settings. -/
def allSettings : List SettingId :=
  [.rate, .ceiling, .lineRate, .retries, .rolePref, .floor, .burst, .holdLimit, .tripTime, .fbOffset, .i2c]

/-- Map address and length in bytes of a setting (12.6). -/
def settingPlace : SettingId → Nat × Nat
  | .rate => (0x40, 4)
  | .ceiling => (0x44, 1)
  | .lineRate => (0x45, 1)
  | .retries => (0x46, 1)
  | .rolePref => (0x47, 1)
  | .floor => (0x48, 4)
  | .burst => (0x4C, 4)
  | .holdLimit => (0x50, 2)
  | .tripTime => (0x52, 2)
  | .fbOffset => (0x54, 1)
  | .i2c => (0x55, 1)

/-- The role preference a code names: 0 NONE, 1 A, 2 B (12). -/
def prefOf (v : Nat) : Option Link := if v = 1 then some .A else if v = 2 then some .B else none

/-- Put a value into a setting. -/
def putSetting (x : SettingId) (v : Nat) (t : Settings) : Settings :=
  match x with
  | .rate => { t with rate := v }
  | .ceiling => { t with ceiling := v }
  | .lineRate => { t with lineRate := v }
  | .retries => { t with retries := v }
  | .rolePref => { t with rolePref := prefOf v }
  | .floor => { t with floor := v }
  | .burst => { t with burst := v }
  | .holdLimit => { t with holdLimit := v }
  | .tripTime => { t with tripTime := v }
  | .fbOffset => { t with fbOffset := v }
  | .i2c => { t with i2c := v }

/-- A value lies in a setting's range, the bound of the bulk floor by the contracted rate left to its cross-check
(11.2). -/
def settingInRange (x : SettingId) (v : Nat) : Bool :=
  match x with
  | .rate => decide (1000 ≤ v ∧ v ≤ 25000000)
  | .ceiling => decide (50 ≤ v ∧ v ≤ 100)
  | .lineRate => decide (v = 10 ∨ v = 25)
  | .retries => decide (v ≤ 7)
  | .rolePref => decide (v ≤ 2)
  | .floor => true
  | .burst => decide (9216 ≤ v ∧ v ≤ 1048576)
  | .holdLimit => decide (100 ≤ v ∧ v ≤ 10000)
  | .tripTime => decide (v ≤ 1000)
  | .fbOffset => decide (14 ≤ v ∧ v ≤ 96)
  | .i2c => decide (0x08 ≤ v ∧ v ≤ 0x77)

/-- Every setting lies in its range but for the cross-checks (11.2). -/
def rangesOk (t : Settings) : Bool :=
  settingInRange .rate t.rate && settingInRange .ceiling t.ceiling && settingInRange .lineRate t.lineRate
    && settingInRange .retries t.retries && settingInRange .burst t.burst && settingInRange .holdLimit t.holdLimit
    && settingInRange .tripTime t.tripTime && settingInRange .fbOffset t.fbOffset && settingInRange .i2c t.i2c

/-- The contracted rate is not above a line rate in Gb/s (R188). -/
def rateFits (t : Settings) (gbps : Nat) : Bool := decide (t.rate ≤ gbps * 1000000)

/-- The bulk floor is not above the contracted rate (R188). -/
def floorFits (t : Settings) : Bool := decide (t.floor ≤ t.rate)

/-- The test of the nonvolatile image at recall (R190). -/
def imageOk (m : Image) : Bool :=
  m.checkOk && rangesOk m.settings && rateFits m.settings m.settings.lineRate && floorFits m.settings

/-! ## Power-on and recall (R16, R144, R190) -/

/-- The image as power-on finds it: a store cut short leaves a check value that fails (R189). -/
def survivingImage (t : Store) : Image := if t.storing then { t.image with checkOk := false } else t.image

/-- The end of power-on reset: every block at its power-on state, UPLINK_DOWN set if the uplink is down; what was put
out, the waiting commands, the serial numbers of reads and the image remain (R16, R18, R69, R89, R106, R121, R122, R144,
R160, R170, R185, log 31). -/
def powerOn (uplinkUp : Bool) (s : State) : State :=
  let t := { State.reset with
    engines := ⟨emptied s.engines.a, emptied s.engines.b⟩
    uplink := Uplink.initial uplinkUp, store := Store.initial (survivingImage s.store), outputs := s.outputs
    pending := s.pending }
  if uplinkUp then t else setDeviceBit .uplinkDown t

/-- The recalled settings reach the blocks that use them: ready, port address, line rate, credit at the cap, and the
over-subscription condition without its trap (R28, R144, R190). -/
def recallDone (t : Settings) (s : State) : State :=
  let s := modStore (fun x => { x with ready := true, active := t }) s
  let s := modPort (fun p => { p with address := BitVec.ofNat 7 t.i2c }) s
  let s := modUplink (fun u => { u with portRate := t.lineRate, credit := creditCap t }) s
  setAdmission { sum := claimSum s.streams t.floor, oversub := decide (admissionLimit t < claimSum s.streams t.floor) } s

/-- The end of the recall: the image becomes active if it passes its test, else the factory defaults with
SETTINGS_DEFAULTED (R190). -/
def endRecall (s : State) : State :=
  if s.store.ready then s
  else if imageOk s.store.image then recallDone s.store.image.settings s
  else raiseDevice .settingsDefaulted (recallDone Settings.factory s)

/-! ## Pacing reset (R191) -/

/-- A slot's amendment or pending CLOSE is answered DISCARDED (R47). -/
def resetStreamAnswers (i : Slot) (s : State) : State :=
  let r := s.streams[i]
  let s := match r.staged with
    | some a => complete a.link (mkResult .discarded (BitVec.ofNat 8 i.val) a.tag) s
    | none => s
  closeResult i r.pendingClose .discarded s

/-- A record that is owed a result is answered DISCARDED with zero counts (R88). -/
def discardRecord (i : Slot) (r : FrameRecord) (s : State) : State :=
  if r.owed then complete r.link (frameResult i r .discarded 0 0 0) s else s

/-- The HELD records of a slot, the older first. -/
def heldRecords (s : State) (i : Slot) : List FrameRecord :=
  (groupsOf s i).filterMap fun g =>
    match g.kind with
    | .frame f => some f.record
    | _ => none

/-- The HELD and QUEUED records of a slot are answered: on each link HELD first, then QUEUED (R88). Between the links, which
R88 and R191 do not order, all HELD records come first, then A's queue, then B's (log 27). -/
def resetFrameAnswers (i : Slot) (s : State) : State :=
  (heldRecords s i ++ queueOf s .A i ++ queueOf s .B i).foldl (fun s r => discardRecord i r s) s

/-- A bulk record that is owed a result is answered DISCARDED with its packets started (R160, log 35). -/
def discardBulk (c : Chan) (packets : Nat) (r : BulkRecord) (s : State) : State :=
  bulkResult c (Config.bulkDiscardDropped packets r.sent) .discarded r s

/-- The records of a channel are answered in queue order (R160), whichever link each is of (log 27). -/
def resetBulkAnswers (c : Chan) (s : State) : State :=
  s.channels[c].queue.foldl (fun s r => discardBulk c (packetCount s.channels[c] r) r s) s

/-- The completions of a pacing reset: on each link in the order of R191, the two links together in one sequence (log 27). -/
def resetAnswers (s : State) : State :=
  let s := allSlots.foldl (fun s i => resetStreamAnswers i s) s
  let s := allSlots.foldl (fun s i => resetFrameAnswers i s) s
  let s := allChans.foldl (fun s c => resetBulkAnswers c s) s
  bothLinks.foldl (fun s l => complete l (mkNotice .reset 255) s) s

/-- A stream record once its slot is CLOSED (R18, R47). -/
def closedRecord (r : StreamRec) : StreamRec :=
  { r with
    state := .closed, owner := none, standby := none, rate := 0, holdCount := 0, staged := none, pendingClose := none
    lastSel := none }

/-- The arbiter at a pacing reset: transmitter, packet on the wire and port rate kept (R144). -/
def resetUplink (t : Settings) (u : Uplink) : Uplink :=
  { u with
    credit := creditCap t, wait := none, bulkWait := none, trip := none, rr := 3
    slotSeq := Vector.replicate 32 0, chanSeq := Vector.replicate 4 0 }

/-- The pacing state of every block returns to its reset value; clock, links, device traps and counters, store and
port are kept (R17, R47, R69, R88, R106, R121, R122, R144, R160, R170, R185, R191). -/
def resetBlocks (s : State) : State :=
  recompute { s with
    streams := s.streams.map closedRecord
    queues := ⟨Vector.replicate 32 [], Vector.replicate 32 []⟩
    selectors := Vector.replicate 32 Selector.initial
    scheds := Vector.replicate 32 Sched.initial
    engines := ⟨emptied s.engines.a, emptied s.engines.b⟩
    staging := { s.staging with free := List.range Config.poolBlocks }
    uplink := resetUplink s.store.active s.uplink
    channels := Vector.replicate 4 Channel.initial
    traps := { s.traps with stream := Vector.replicate 32 0, counters := Vector.replicate 32 StreamCounters.zero } }

/-- The pacing reset (R191). -/
def pacingResetNow (s : State) : State := resetBlocks (resetAnswers s)

end Sys2Proof.Machine
end

