-- ==== Sys2Proof/Machine/Map.lean ====
section
/-!
DEFINITION. The management port (11_management_port_and_stored_settings.md): write parts, read parts, settings writes,
trap clears, commit and store.
-/

namespace Sys2Proof.Machine

/-- The port acknowledges an address: it is the address in use, the recall has ended and no store is under way
(R186). -/
def acknowledged (s : State) (address : BitVec 7) : Bool :=
  s.store.ready && !s.store.storing && address == s.port.address

/-! ## Write parts (R186) -/

/-- The address at which byte j of a write part lands: it stays within the row of the pointer. -/
def landing (pointer j : Nat) : Nat := pointer / 8 * 8 + (pointer + j) % 8

/-- The bytes of a write part with the addresses at which they land, in order. -/
def placed (pointer : Byte) (data : Bytes) : List (Nat × Byte) :=
  data.zipIdx.map fun x => (landing pointer.toNat x.2, x.1)

/-- The byte that stands at an address after a write part, where it wrote one. -/
def lastWritten (ws : List (Nat × Byte)) (addr : Nat) : Option Byte :=
  (ws.reverse.find? fun w => w.1 == addr).map (·.2)

/-- A write part put a value at an address (log 16). -/
def wrote (ws : List (Nat × Byte)) (addr : Nat) (b : Byte) : Bool := ws.contains (addr, b)

/-! ## Settings (R188) -/

/-- The write part wrote some byte of a setting. -/
def settingWritten (ws : List (Nat × Byte)) (x : SettingId) : Bool :=
  ws.any fun w => decide ((settingPlace x).1 ≤ w.1 ∧ w.1 < (settingPlace x).1 + (settingPlace x).2)

/-- The value of a setting assembled from the map bytes as they stand after a write part. -/
def settingValue (t : Settings) (ws : List (Nat × Byte)) (x : SettingId) : Nat :=
  leNat ((List.range (settingPlace x).2).map fun j =>
    let a := (settingPlace x).1 + j
    (lastWritten ws a).getD (byteAt (settingsBytes t) (a - 0x40)))

/-- The settings with those of a list taken from a write part. -/
def withWritten (t : Settings) (ws : List (Nat × Byte)) (keep : List SettingId) : Settings :=
  keep.foldl (fun u x => putSetting x (settingValue t ws x) u) t

/-- The settings of a list that no failed cross-check refuses, judged as the settings would stand with all of them
(R188). -/
def dropRefused (t : Settings) (ws : List (Nat × Byte)) (portRate : Nat) (keep : List SettingId) : List SettingId :=
  let u := withWritten t ws keep
  let rateBad := !rateFits u (min u.lineRate portRate)
  let floorBad := !floorFits u
  keep.filter fun x => !((rateBad && (x == .rate || x == .lineRate)) || (floorBad && (x == .rate || x == .floor)))

/-- The settings of a write part that are accepted: written and in range, and past the cross-checks, which are made
again without the refused ones until nothing more is refused (R188, log 15). -/
def acceptedSettings (t : Settings) (ws : List (Nat × Byte)) (portRate : Nat) : List SettingId :=
  let keep := allSettings.filter fun x => settingWritten ws x && settingInRange x (settingValue t ws x)
  dropRefused t ws portRate (dropRefused t ws portRate (dropRefused t ws portRate keep))

/-- Accepted settings become active together; sum and limit are recomputed, the credit is cut to the new cap, and a
trip time of 0 ends the trip (R27, R28, R127, R135, R188). -/
def writeSettings (ws : List (Nat × Byte)) (s : State) : State :=
  let keep := acceptedSettings s.store.active ws s.uplink.portRate
  if keep.isEmpty then s
  else
    let t := withWritten s.store.active ws keep
    let s := modStore (fun x => { x with active := t }) s
    let s := modUplink (fun u => { u with
      credit := min u.credit (creditCap t), trip := if t.tripTime = 0 then none else u.trip }) s
    recompute s

/-! ## Trap bytes (R166) -/

/-- A write of 0 to a device trap's bit clears the trap (R166). -/
def deviceByteWritten (s : State) (w : Nat × Byte) : State :=
  if w.1 = 0x10 then clearDevice ((~~~w.2).setWidth 16) s
  else if w.1 = 0x11 then clearDevice ((~~~w.2).setWidth 16 <<< 8) s
  else s

/-- A write of 0 to a slot's summary bit clears every per-stream trap of the slot (R166). -/
def summaryByteWritten (i : Slot) (s : State) (w : Nat × Byte) : State :=
  if w.1 = 0x14 + i.val / 8 ∧ w.2.getLsbD (i.val % 8) = false then clearStream i 0xFF s else s

/-- A write part over the trap row (R166, log 16). -/
def writeTraps (ws : List (Nat × Byte)) (s : State) : State :=
  allSlots.foldl (fun s i => ws.foldl (summaryByteWritten i) s) (ws.foldl deviceByteWritten s)

/-! ## Commit and pacing reset bytes (R189, R191) -/

/-- A commit is ordered: busy goes on (R189). -/
def orderCommit (s : State) : State := modStore (fun x => { x with busy := true }) s

/-- A write part over the row of the commit and pacing reset bytes (R189, R191). -/
def writeOrders (ws : List (Nat × Byte)) (s : State) : State :=
  let s := if wrote ws 0x70 1 then orderCommit s else s
  if wrote ws 0x71 1 then pacingResetNow s else s

/-- The pointer after a write part; a read transaction under way has ended (R186). -/
def movePointer (pointer : Byte) (n : Nat) (s : State) : State :=
  modPort (fun p => { p with pointer := BitVec.ofNat 8 (landing pointer.toNat n), latch := none }) s

/-- The bytes of a write part take effect together at its end (R186). -/
def writeBytes (pointer : Byte) (data : Bytes) (s : State) : State :=
  let ws := placed pointer data
  let row := pointer.toNat / 8
  let s := movePointer pointer data.length s
  if 8 ≤ row ∧ row < 12 then writeSettings ws s
  else if row = 2 then writeTraps ws s
  else if row = 14 then writeOrders ws s
  else s

/-- A write part addressed to the port (R186). -/
def writePart (address : BitVec 7) (pointer : Byte) (data : Bytes) (s : State) : State :=
  if acknowledged s address then finish s (writeBytes pointer data s) else emit .notAcknowledged s

/-! ## Read parts (R186, R187) -/

/-- The bytes of the row that a port reads from: the row latched by this transaction, else the row as it stands (R186).
The port keeps the latch of one row, so a row that the same transaction reaches again, after the pointer has passed from
0xFF to 0x00, is latched anew (log 40). -/
def rowBytes (s : State) (p : Port) : Bytes :=
  match p.latch with
  | some (r, bs) => if r = p.pointer.toNat / 8 then bs else mapRow s (p.pointer.toNat / 8)
  | none => mapRow s (p.pointer.toNat / 8)

/-- The byte a port reads at its pointer. -/
def readByte (s : State) (p : Port) : Byte := byteAt (rowBytes s p) (p.pointer.toNat % 8)

/-- The port after it has read a byte: the row latched, the pointer one further, from 0xFF to 0x00 (R186). -/
def afterByte (s : State) (p : Port) : Port :=
  { p with latch := some (p.pointer.toNat / 8, rowBytes s p), pointer := p.pointer + 1 }

/-- n bytes of a read, and the port after them. -/
def readBytes (s : State) : Nat → Port → Bytes × Port
  | 0, p => ([], p)
  | n + 1, p =>
    let q := readBytes s n (afterByte s p)
    (readByte s p :: q.1, q.2)

/-- A read part addressed to the port; its first bytes start a transaction, so no row is latched yet (R186). -/
def readPart (address : BitVec 7) (start : Bool) (n : Nat) (s : State) : State :=
  if acknowledged s address then
    let p := if start then { s.port with latch := none } else s.port
    let q := readBytes s n p
    emit (.mapBytes q.1) (modPort (fun _ => q.2) s)
  else emit .notAcknowledged s

/-! ## The store (R189) -/

/-- The stop of a transaction in which a commit was written: the active settings go into the image, whose check value
fails until the store completes (R189). -/
def beginStore (s : State) : State :=
  if s.store.busy && !s.store.storing then
    modStore (fun x => { x with image := { settings := x.active, checkOk := false }, storing := true }) s
  else s

/-- The store completes (R189). -/
def endStore (s : State) : State :=
  if s.store.storing then
    modStore (fun x => { x with image := { x.image with checkOk := true }, storing := false, busy := false }) s
  else s

end Sys2Proof.Machine
end

