-- ==== Sys2Proof/Machine/Events.lean ====
section
/-!
DEFINITION. What the uplink port and the passing of time do to the Uplink Arbiter (07, R64, R129, R131, R137, R142, R143).
-/

namespace Sys2Proof.Machine

/-- A head becomes eligible: while the transmitter is IDLE an opportunity falls (R64, R124). -/
def reportEligible (i : Slot) (s : State) : State := if (eligibleHead s i).isSome then opportunity s else s

/-- The credit has reached the cost of the credit wait or of the bulk credit wait (R129, R131). -/
def creditReached (u : Uplink) : Bool :=
  (match u.wait with
    | some w => decide (w.cost ≤ u.credit)
    | none => false)
  || (match u.bulkWait with
    | some c => decide (c ≤ u.credit)
    | none => false)

/-- A transmit opportunity falls as the credit reaches a waiting cost (R124, R129, R131). -/
def reportCredit (s : State) : State := if creditReached s.uplink then opportunity s else s

/-- The packet on the wire ends (R137). -/
def endPacket (s : State) : State :=
  if s.uplink.tx = .sending then opportunity (modUplink (fun u => { u with tx := .idle, wire := none }) s) else s

/-- The uplink is lost (R142). -/
def loseUplink (s : State) : State :=
  if s.uplink.tx = .down then s
  else
    raiseDevice .uplinkDown
      (modUplink (fun u => { u with tx := .down, wire := none, wait := none, bulkWait := none }) s)

/-- The uplink is restored (R143). -/
def restoreUplink (s : State) : State :=
  if s.uplink.tx = .down then opportunity (modUplink (fun u => { u with tx := .idle }) s) else s

end Sys2Proof.Machine
end

