-- ==== Sys2Proof/Machine/ExecBulk.lean ====
section
/-!
DEFINITION. The meanings of the bulk requests and of studio feedback (08_bulk_transfer_and_studio_feedback.md).
-/

namespace Sys2Proof.Machine

/-- BULK_SETUP_SET (R145); a BULK-SETUP with no known action is refused here (log 13). -/
def execBulkSetupSet (l : Link) (r : Record) (replies : List Bytes) (s : State) : Host.Outcome State Fault Refusal :=
  .next (takeWithReads (recKind r == 8 && recAction r != 2) l r replies (judgeSetup l r replies) s)

/-- BULK_SETUP_CLEAR (R146). -/
def execBulkSetupClear (l : Link) (r : Record) (s : State) : Host.Outcome State Fault Refusal :=
  .next (takeRequest (recKind r == 8 && recAction r == 2) l r (requestClear l r) s)

/-- BULK_POST (R147, R148). -/
def execBulkPost (l : Link) (r : Record) (replies : List Bytes) (s : State) : Host.Outcome State Fault Refusal :=
  .next (takeWithReads (recKind r == 9) l r replies (judgePost l r replies) s)

/-- BULK_ABORT_ONE (R152); a BULK-ABORT with no known scope is refused here (log 13). -/
def execBulkAbortOne (l : Link) (r : Record) (s : State) : Host.Outcome State Fault Refusal :=
  .next (finish s (takeRequest (recKind r == 10 && recScope r != 2) l r (requestAbortOne l r) s))

/-- BULK_ABORT_ALL (R152). -/
def execBulkAbortAll (l : Link) (r : Record) (s : State) : Host.Outcome State Fault Refusal :=
  .next (finish s (takeRequest (recKind r == 10 && recScope r == 2) l r (requestAbortAll l r) s))

/-- BULK_BLOCK_ASK (R120, R150). -/
def execBulkBlockAsk (c : Chan) (s : State) : Host.Outcome State Fault Refusal :=
  .next (askBlock c s)

/-- FEEDBACK_FRAME (R155 to R157). -/
def execFeedbackFrame (frame : Bytes) (s : State) : Host.Outcome State Fault Refusal :=
  .next (finish s (receiveFrame frame s))

/-- HOLD_TIMER_EXPIRY (R158). -/
def execHoldTimerExpiry (c : Chan) (s : State) : Host.Outcome State Fault Refusal :=
  .next (finish s (expireHold c s))

end Sys2Proof.Machine
end

