-- ==== Sys2Proof/Machine/ExecFrame.lean ====
section
/-!
DEFINITION. The meanings of the frame requests, of frame selection and of the fetch engines (04, 05, 06).
-/

namespace Sys2Proof.Machine

/-- SUBMIT (R72 to R76). -/
def execSubmit (l : Link) (r : Record) (replies : List Bytes) (s : State) : Host.Outcome State Fault Refusal :=
  .next (takeWithReads (recKind r == 6) l r replies (judgeSubmit l r replies) s)

/-- CANCEL_ONE (R79); a CANCEL with no known scope is refused here (log 13). -/
def execCancelOne (l : Link) (r : Record) (s : State) : Host.Outcome State Fault Refusal :=
  .next (takeRequest (recKind r == 7 && recScope r != 2) l r (requestCancelOne l r) s)

/-- CANCEL_THROUGH (R79). -/
def execCancelThrough (l : Link) (r : Record) (s : State) : Host.Outcome State Fault Refusal :=
  .next (takeRequest (recKind r == 7 && recScope r == 2) l r (requestCancelThrough l r) s)

/-- FRAME_SELECTION_EVENT (R91). -/
def execFrameSelectionEvent (slot : Slot) (s : State) : Host.Outcome State Fault Refusal :=
  .next (finish s (selectionEvent slot s))

/-- READ_ISSUE (R110). -/
def execReadIssue (l : Link) (s : State) : Host.Outcome State Fault Refusal :=
  .next (finish s (issueRead l s))

/-- READ_COMPLETION (R111, R112). -/
def execReadCompletion (l : Link) (attempt : Nat) (data : Bytes) (s : State) : Host.Outcome State Fault Refusal :=
  .next (finish s (completeRead l attempt data s))

/-- READ_TIMEOUT (R113, R114). -/
def execReadTimeout (l : Link) (attempt : Nat) (s : State) : Host.Outcome State Fault Refusal :=
  .next (finish s (timeoutRead l attempt s))

/-- READ_ERROR (R113, R114). -/
def execReadError (l : Link) (attempt : Nat) (s : State) : Host.Outcome State Fault Refusal :=
  .next (finish s (errorRead l attempt s))

end Sys2Proof.Machine
end

