-- ==== Sys2Proof/Machine/ExecLink.lean ====
section
/-!
DEFINITION. The meanings of the engine link commands (10_engine_links.md).
-/

namespace Sys2Proof.Machine

/-- BIND (R172). -/
def execBind (l : Link) (s : State) : Host.Outcome State Fault Refusal :=
  .next (bindLink l s)

/-- UNBIND (R173). -/
def execUnbind (l : Link) (s : State) : Host.Outcome State Fault Refusal :=
  .next (unbindLink l s)

/-- PCIE_LINK_LOSS (R173). -/
def execPcieLinkLoss (l : Link) (s : State) : Host.Outcome State Fault Refusal :=
  .next (loseLink l s)

/-- PCIE_FUNCTION_RESET (R173). -/
def execPcieFunctionReset (l : Link) (s : State) : Host.Outcome State Fault Refusal :=
  .next (resetFunction l s)

/-- REGISTER_WRITE (R172, R186, R193): a register or map byte with a behaviour of its own acts by that behaviour
(log 19). -/
def execRegisterWrite (target : RegisterTarget) (s : State) : Host.Outcome State Fault Refusal :=
  .next (match target with
    | .linkWindow l offset value => writeWindow l offset.toNat value s
    | .map address pointer data => writePart address pointer data s)

/-- REQUEST_TAIL_WRITE (R174). -/
def execRequestTailWrite (l : Link) (value : BitVec 32) (s : State) : Host.Outcome State Fault Refusal :=
  .next (writeTail l value s)

/-- The timeout of a request read has come (R175). -/
def timeoutReached (l : Link) (s : State) : Bool :=
  match (s.links.get l).request with
  | none => false
  | some q => decide (q.expiry ≤ nowOf s)

/-- REQUEST_READ_TIMEOUT (R175): the read under way has reached its expiry. -/
def execRequestReadTimeout (l : Link) (s : State) : Host.Outcome State Fault Refusal :=
  .next (if timeoutReached l s then requestFault l s else s)

/-- REQUEST_READ_ERROR (R175). -/
def execRequestReadError (l : Link) (s : State) : Host.Outcome State Fault Refusal :=
  .next (requestFault l s)

/-- UNKNOWN_KIND (R176). -/
def execUnknownKind (l : Link) (r : Record) (s : State) : Host.Outcome State Fault Refusal :=
  .next (takeRequest (recKind r == 0 || decide (16 < recKind r)) l r (respond l r .badRequest) s)

/-- NOP (R176). -/
def execNop (l : Link) (r : Record) (s : State) : Host.Outcome State Fault Refusal :=
  .next (takeRequest (recKind r == 12) l r (respond l r .ok) s)

/-- WINDOW (R181). -/
def execWindow (l : Link) (r : Record) (s : State) : Host.Outcome State Fault Refusal :=
  .next (takeRequest (recKind r == 11) l r (setWindow l r) s)

/-- COMPLETION_HEAD_WRITE (R178, R179). -/
def execCompletionHeadWrite (l : Link) (value : BitVec 32) (s : State) : Host.Outcome State Fault Refusal :=
  .next (writeHead l value s)

end Sys2Proof.Machine
end

