-- ==== Sys2Proof/Machine/ExecMap.lean ====
section
/-!
DEFINITION. The meanings of the management port commands (11_management_port_and_stored_settings.md).
-/

namespace Sys2Proof.Machine

/-- MAP_READ (R186, R187). -/
def execMapRead (address : BitVec 7) (start : Bool) (n : Nat) (s : State) : Host.Outcome State Fault Refusal :=
  .next (readPart address start n s)

/-- SETTINGS_WRITE (R188): a write part over a settings row. -/
def execSettingsWrite (address : BitVec 7) (pointer : Byte) (data : Bytes) (s : State) : Host.Outcome State Fault Refusal :=
  .next (if 8 ≤ pointer.toNat / 8 ∧ pointer.toNat / 8 < 12 then writePart address pointer data s else s)

/-- MAP_TRAP_CLEAR (R166): a write part over the trap row. -/
def execMapTrapClear (address : BitVec 7) (pointer : Byte) (data : Bytes) (s : State) : Host.Outcome State Fault Refusal :=
  .next (if pointer.toNat / 8 = 2 then writePart address pointer data s else s)

/-- COMMIT (R189): a write part that writes 1 to the commit byte. -/
def execCommit (address : BitVec 7) (pointer : Byte) (data : Bytes) (s : State) : Host.Outcome State Fault Refusal :=
  .next (if wrote (placed pointer data) 0x70 1 then writePart address pointer data s else s)

/-- STORE_COMPLETION (R189). -/
def execStoreCompletion (s : State) : Host.Outcome State Fault Refusal :=
  .next (endStore s)

/-- PACING_RESET (R191): a write part that writes 1 to the pacing reset byte. -/
def execPacingReset (address : BitVec 7) (pointer : Byte) (data : Bytes) (s : State) : Host.Outcome State Fault Refusal :=
  .next (if wrote (placed pointer data) 0x71 1 then writePart address pointer data s else s)

/-- STORE_BEGIN (R189). -/
def execStoreBegin (s : State) : Host.Outcome State Fault Refusal :=
  .next (beginStore s)

end Sys2Proof.Machine
end

