-- ==== Sys2Proof/Machine/ExecStream.lean ====
section
/-!
DEFINITION. The meanings of the stream requests (02_streams_and_admission.md).
-/

namespace Sys2Proof.Machine

/-- OPEN (R21 to R25). -/
def execOpenStream (l : Link) (r : Record) (replies : List Bytes) (s : State) : Host.Outcome State Fault Refusal :=
  .next (takeWithReads (recKind r == 1) l r replies (judgeOpen l r replies) s)

/-- AMEND (R29, R30). -/
def execAmend (l : Link) (r : Record) (replies : List Bytes) (s : State) : Host.Outcome State Fault Refusal :=
  .next (takeWithReads (recKind r == 2) l r replies (judgeAmend l r replies) s)

/-- CLOSE_GRACEFUL (R33, R34, R36); a CLOSE with no known mode is refused here (log 13). -/
def execCloseGraceful (l : Link) (r : Record) (s : State) : Host.Outcome State Fault Refusal :=
  .next (finish s (takeRequest (recKind r == 3 && recAction r != 2) l r (requestCloseGraceful l r) s))

/-- CLOSE_IMMEDIATE (R35, R36). -/
def execCloseImmediate (l : Link) (r : Record) (s : State) : Host.Outcome State Fault Refusal :=
  .next (finish s (takeRequest (recKind r == 3 && recAction r == 2) l r (requestCloseImmediate l r) s))

/-- STANDBY_JOIN (R38); a STANDBY with no known action is refused here (log 13). -/
def execStandbyJoin (l : Link) (r : Record) (s : State) : Host.Outcome State Fault Refusal :=
  .next (takeRequest (recKind r == 5 && recAction r != 2) l r (requestJoin l r) s)

/-- STANDBY_LEAVE (R39). -/
def execStandbyLeave (l : Link) (r : Record) (s : State) : Host.Outcome State Fault Refusal :=
  .next (takeRequest (recKind r == 5 && recAction r == 2) l r (requestLeave l r) s)

/-- ADOPT (R40, R41). -/
def execAdopt (l : Link) (r : Record) (s : State) : Host.Outcome State Fault Refusal :=
  .next (takeRequest (recKind r == 4) l r (requestAdopt l r) s)

end Sys2Proof.Machine
end

