-- ==== Sys2Proof/Machine/ExecTime.lean ====
section
/-!
DEFINITION. The meanings of the Station Clock commands (01_station_time.md).
-/

namespace Sys2Proof.Machine

/-- POWER_ON_RESET (R2, R16, R144, R170, R185). -/
def execPowerOnReset (uplinkUp : Bool) (s : State) : Host.Outcome State Fault Refusal :=
  .next (powerOn uplinkUp s)

/-- SETTINGS_RECALL_END (R190). -/
def execSettingsRecallEnd (s : State) : Host.Outcome State Fault Refusal :=
  .next (endRecall s)

/-- NOMINAL_NANOSECOND (R3, R4, R125). -/
def execNominalNanosecond (s : State) : Host.Outcome State Fault Refusal :=
  .next (nominalTick s)

/-- ABSORPTION (R4, R125): the nominal nanosecond at which an absorption falls (log 10). -/
def execAbsorption (s : State) : Host.Outcome State Fault Refusal :=
  .next (if absorptionDue s then nominalTick s else s)

/-- STATION_TIME_LOW_READ (R5). -/
def execStationTimeLowRead (l : Link) (s : State) : Host.Outcome State Fault Refusal :=
  .next (readTimeLow l s)

/-- TIME_SET_TRIM (R6, R7); a TIME-SET with no known action is refused here (log 13). -/
def execTimeSetTrim (l : Link) (r : Record) (s : State) : Host.Outcome State Fault Refusal :=
  .next (takeRequest (recKind r == 13 && recAction r != 2) l r (timeTrim l r) s)

/-- TIME_SET_STEP (R6, R8 to R10). -/
def execTimeSetStep (l : Link) (r : Record) (s : State) : Host.Outcome State Fault Refusal :=
  .next (finish s (takeRequest (recKind r == 13 && recAction r == 2) l r (timeStep l r) s))

/-- ROLE_TAKE (R11); a ROLE with no known action is refused here (log 13). -/
def execRoleTake (l : Link) (r : Record) (s : State) : Host.Outcome State Fault Refusal :=
  .next (takeRequest (recKind r == 14 && recAction r != 2) l r (roleRequestTake l r) s)

/-- ROLE_RELEASE (R12). -/
def execRoleRelease (l : Link) (r : Record) (s : State) : Host.Outcome State Fault Refusal :=
  .next (takeRequest (recKind r == 14 && recAction r == 2) l r (roleRequestRelease l r) s)

end Sys2Proof.Machine
end

