-- ==== Sys2Proof/Machine/ExecTrap.lean ====
section
/-!
DEFINITION. The meanings of the trap and report requests (09_traps_and_counters.md).
-/

namespace Sys2Proof.Machine

/-- TRAP_CLEAR_DEVICE (R165); a TRAP-CLEAR with no known scope is refused here (log 13). -/
def execTrapClearDevice (l : Link) (r : Record) (s : State) : Host.Outcome State Fault Refusal :=
  .next (takeRequest (recKind r == 15 && recAction r != 2) l r (requestClearDevice l r) s)

/-- TRAP_CLEAR_STREAM (R165). -/
def execTrapClearStream (l : Link) (r : Record) (s : State) : Host.Outcome State Fault Refusal :=
  .next (takeRequest (recKind r == 15 && recAction r == 2) l r (requestClearStream l r) s)

/-- REPORT_STREAM (R169); a REPORT with no known scope is refused here (log 13). -/
def execReportStream (l : Link) (r : Record) (s : State) : Host.Outcome State Fault Refusal :=
  .next (takeRequest (recKind r == 16 && recAction r != 2) l r (requestReportStream l r) s)

/-- REPORT_DEVICE (R169). -/
def execReportDevice (l : Link) (r : Record) (s : State) : Host.Outcome State Fault Refusal :=
  .next (takeRequest (recKind r == 16 && recAction r == 2) l r (requestReportDevice l r) s)

end Sys2Proof.Machine
end

