-- ==== Sys2Proof/Machine/ExecUplink.lean ====
section
/-!
DEFINITION. The meanings of the uplink events (03, 07).
-/

namespace Sys2Proof.Machine

/-- HEAD_ELIGIBLE (R64, R124). -/
def execHeadEligible (slot : Slot) (s : State) : Host.Outcome State Fault Refusal :=
  .next (reportEligible slot s)

/-- DEADLINE_EXPIRY (R65, R132). -/
def execDeadlineExpiry (slot : Slot) (s : State) : Host.Outcome State Fault Refusal :=
  .next (finish s (expireHead slot s))

/-- CREDIT_READY (R129, R131). -/
def execCreditReady (s : State) : Host.Outcome State Fault Refusal :=
  .next (reportCredit s)

/-- BULK_TRIP_EXPIRY (R135). -/
def execBulkTripExpiry (s : State) : Host.Outcome State Fault Refusal :=
  .next (finish s (expireTrip s))

/-- PACKET_END (R137). -/
def execPacketEnd (s : State) : Host.Outcome State Fault Refusal :=
  .next (endPacket s)

/-- UPLINK_LOSS (R142). -/
def execUplinkLoss (s : State) : Host.Outcome State Fault Refusal :=
  .next (loseUplink s)

/-- UPLINK_RESTORE (R143). -/
def execUplinkRestore (s : State) : Host.Outcome State Fault Refusal :=
  .next (restoreUplink s)

end Sys2Proof.Machine
end

