-- ==== Sys2Proof/Machine/Dispatch.lean ====
section
/-!
DEFINITION. Which meaning each command has.
-/

namespace Sys2Proof.Machine

/-- The effect of a command on everything but the queue it came from. -/
def exec (i : Instr) (s : State) : Host.Outcome State Fault Refusal :=
  match i with
  | .powerOnReset uplinkUp => Sys2Proof.Machine.execPowerOnReset uplinkUp s
  | .settingsRecallEnd => Sys2Proof.Machine.execSettingsRecallEnd s
  | .nominalNanosecond => Sys2Proof.Machine.execNominalNanosecond s
  | .absorption => Sys2Proof.Machine.execAbsorption s
  | .stationTimeLowRead l => Sys2Proof.Machine.execStationTimeLowRead l s
  | .bind l => Sys2Proof.Machine.execBind l s
  | .unbind l => Sys2Proof.Machine.execUnbind l s
  | .pcieLinkLoss l => Sys2Proof.Machine.execPcieLinkLoss l s
  | .pcieFunctionReset l => Sys2Proof.Machine.execPcieFunctionReset l s
  | .registerWrite target => Sys2Proof.Machine.execRegisterWrite target s
  | .requestTailWrite l value => Sys2Proof.Machine.execRequestTailWrite l value s
  | .requestReadTimeout l => Sys2Proof.Machine.execRequestReadTimeout l s
  | .requestReadError l => Sys2Proof.Machine.execRequestReadError l s
  | .unknownKind l r => Sys2Proof.Machine.execUnknownKind l r s
  | .nop l r => Sys2Proof.Machine.execNop l r s
  | .window l r => Sys2Proof.Machine.execWindow l r s
  | .openStream l r replies => Sys2Proof.Machine.execOpenStream l r replies s
  | .amend l r replies => Sys2Proof.Machine.execAmend l r replies s
  | .closeGraceful l r => Sys2Proof.Machine.execCloseGraceful l r s
  | .closeImmediate l r => Sys2Proof.Machine.execCloseImmediate l r s
  | .standbyJoin l r => Sys2Proof.Machine.execStandbyJoin l r s
  | .standbyLeave l r => Sys2Proof.Machine.execStandbyLeave l r s
  | .adopt l r => Sys2Proof.Machine.execAdopt l r s
  | .submit l r replies => Sys2Proof.Machine.execSubmit l r replies s
  | .cancelOne l r => Sys2Proof.Machine.execCancelOne l r s
  | .cancelThrough l r => Sys2Proof.Machine.execCancelThrough l r s
  | .timeSetTrim l r => Sys2Proof.Machine.execTimeSetTrim l r s
  | .timeSetStep l r => Sys2Proof.Machine.execTimeSetStep l r s
  | .roleTake l r => Sys2Proof.Machine.execRoleTake l r s
  | .roleRelease l r => Sys2Proof.Machine.execRoleRelease l r s
  | .bulkSetupSet l r replies => Sys2Proof.Machine.execBulkSetupSet l r replies s
  | .bulkSetupClear l r => Sys2Proof.Machine.execBulkSetupClear l r s
  | .bulkPost l r replies => Sys2Proof.Machine.execBulkPost l r replies s
  | .bulkAbortOne l r => Sys2Proof.Machine.execBulkAbortOne l r s
  | .bulkAbortAll l r => Sys2Proof.Machine.execBulkAbortAll l r s
  | .trapClearDevice l r => Sys2Proof.Machine.execTrapClearDevice l r s
  | .trapClearStream l r => Sys2Proof.Machine.execTrapClearStream l r s
  | .reportStream l r => Sys2Proof.Machine.execReportStream l r s
  | .reportDevice l r => Sys2Proof.Machine.execReportDevice l r s
  | .completionHeadWrite l value => Sys2Proof.Machine.execCompletionHeadWrite l value s
  | .frameSelectionEvent slot => Sys2Proof.Machine.execFrameSelectionEvent slot s
  | .readIssue l => Sys2Proof.Machine.execReadIssue l s
  | .readCompletion l attempt data => Sys2Proof.Machine.execReadCompletion l attempt data s
  | .readTimeout l attempt => Sys2Proof.Machine.execReadTimeout l attempt s
  | .readError l attempt => Sys2Proof.Machine.execReadError l attempt s
  | .bulkBlockAsk c => Sys2Proof.Machine.execBulkBlockAsk c s
  | .headEligible slot => Sys2Proof.Machine.execHeadEligible slot s
  | .deadlineExpiry slot => Sys2Proof.Machine.execDeadlineExpiry slot s
  | .creditReady => Sys2Proof.Machine.execCreditReady s
  | .bulkTripExpiry => Sys2Proof.Machine.execBulkTripExpiry s
  | .packetEnd => Sys2Proof.Machine.execPacketEnd s
  | .uplinkLoss => Sys2Proof.Machine.execUplinkLoss s
  | .uplinkRestore => Sys2Proof.Machine.execUplinkRestore s
  | .feedbackFrame frame => Sys2Proof.Machine.execFeedbackFrame frame s
  | .holdTimerExpiry c => Sys2Proof.Machine.execHoldTimerExpiry c s
  | .mapRead address start n => Sys2Proof.Machine.execMapRead address start n s
  | .settingsWrite address pointer data => Sys2Proof.Machine.execSettingsWrite address pointer data s
  | .mapTrapClear address pointer data => Sys2Proof.Machine.execMapTrapClear address pointer data s
  | .commit address pointer data => Sys2Proof.Machine.execCommit address pointer data s
  | .storeCompletion => Sys2Proof.Machine.execStoreCompletion s
  | .pacingReset address pointer data => Sys2Proof.Machine.execPacingReset address pointer data s
  | .storeBegin => Sys2Proof.Machine.execStoreBegin s

end Sys2Proof.Machine
end

