-- ==== Sys2Proof/WellFormed.lean ====
section
/-!
DEFINITION. Which commands are well formed: the request record is of the row's kind and action, no more replies than
the kind reads, a write part lies in the row that the command is about.
-/

namespace Sys2Proof

open Machine

/-- The record is of a kind with an action other than the second row's. -/
def firstRow (r : Record) (kind : Nat) : Bool := recKind r == kind && recAction r != 2

/-- The record is of a kind with the second row's action. -/
def secondRow (r : Record) (kind : Nat) : Bool := recKind r == kind && recAction r == 2

/-- The pointer of a write part lies in a run of rows of the map. -/
def pointerIn (pointer : Byte) (first last : Nat) : Bool := decide (first ≤ pointer.toNat / 8 ∧ pointer.toNat / 8 ≤ last)

/-- A register target is aligned, where it is a 32-bit register (12.1). -/
def targetOk : RegisterTarget → Bool
  | .linkWindow _ offset _ => decide (offset.toNat % 4 = 0)
  | .map _ _ _ => true

/-- A command is well formed. -/
def Instr.wellFormed : Instr → Bool
  | .powerOnReset _ => true
  | .settingsRecallEnd => true
  | .nominalNanosecond => true
  | .absorption => true
  | .stationTimeLowRead _ => true
  | .bind _ => true
  | .unbind _ => true
  | .pcieLinkLoss _ => true
  | .pcieFunctionReset _ => true
  | .registerWrite target => targetOk target
  | .requestTailWrite _ _ => true
  | .requestReadTimeout _ => true
  | .requestReadError _ => true
  | .unknownKind _ r => recKind r == 0 || decide (16 < recKind r)
  | .nop _ r => recKind r == 12
  | .window _ r => recKind r == 11
  | .openStream _ r replies => recKind r == 1 && decide (replies.length ≤ 1)
  | .amend _ r replies => recKind r == 2 && decide (replies.length ≤ 2)
  | .closeGraceful _ r => firstRow r 3
  | .closeImmediate _ r => secondRow r 3
  | .standbyJoin _ r => firstRow r 5
  | .standbyLeave _ r => secondRow r 5
  | .adopt _ r => recKind r == 4
  | .submit _ r replies => recKind r == 6 && decide (replies.length ≤ 1)
  | .cancelOne _ r => recKind r == 7 && recScope r != 2
  | .cancelThrough _ r => recKind r == 7 && recScope r == 2
  | .timeSetTrim _ r => firstRow r 13
  | .timeSetStep _ r => secondRow r 13
  | .roleTake _ r => firstRow r 14
  | .roleRelease _ r => secondRow r 14
  | .bulkSetupSet _ r replies => firstRow r 8 && decide (replies.length ≤ 1)
  | .bulkSetupClear _ r => secondRow r 8
  | .bulkPost _ r replies => recKind r == 9 && decide (replies.length ≤ 1)
  | .bulkAbortOne _ r => recKind r == 10 && recScope r != 2
  | .bulkAbortAll _ r => recKind r == 10 && recScope r == 2
  | .trapClearDevice _ r => firstRow r 15
  | .trapClearStream _ r => secondRow r 15
  | .reportStream _ r => firstRow r 16
  | .reportDevice _ r => secondRow r 16
  | .completionHeadWrite _ _ => true
  | .frameSelectionEvent _ => true
  | .readIssue _ => true
  | .readCompletion _ _ _ => true
  | .readTimeout _ _ => true
  | .readError _ _ => true
  | .bulkBlockAsk _ => true
  | .headEligible _ => true
  | .deadlineExpiry _ => true
  | .creditReady => true
  | .bulkTripExpiry => true
  | .packetEnd => true
  | .uplinkLoss => true
  | .uplinkRestore => true
  | .feedbackFrame _ => true
  | .holdTimerExpiry _ => true
  | .mapRead _ _ n => decide (1 ≤ n)
  | .settingsWrite _ pointer _ => pointerIn pointer 8 11
  | .mapTrapClear _ pointer _ => pointerIn pointer 2 2
  | .commit _ pointer data => wrote (placed pointer data) 0x70 1
  | .storeCompletion => true
  | .pacingReset _ pointer data => wrote (placed pointer data) 0x71 1
  | .storeBegin => true

end Sys2Proof
end

