-- ==== Sys2Proof/Safety.lean ====
section
/-!
DEFINITION. The terms in which claims are made: when a request can be taken and answered, what answering it leaves of
the state, and the invariants of a run.
-/

namespace Sys2Proof.Machine

/-! ## Requests and completions -/

/-- A link is UP and its completion ring has room (R178). -/
def HasRoom (s : State) (l : Link) : Prop := (s.links.get l).up = true ∧ ringFull (s.links.get l) = false

/-- The request r of an UP link, with what its parameter reads returned, is the one in progress, and its RESULT finds
room in the ring (R174, R177). -/
def Ready (s : State) (l : Link) (r : Record) (replies : List Bytes) : Prop :=
  requestPending s l r replies = true ∧ ringFull (s.links.get l) = false

/-- The request r of an UP link with its parameter reads' replies is ready to be judged: where one of these reads is under
way, the replies hold a complete answer to it (R175). -/
def AtHand (s : State) (l : Link) (r : Record) (replies : List Bytes) : Prop :=
  Ready s l r replies ∧ ∀ q, (s.links.get l).request = some q → q.record = some r →
    ∃ bs, replies[q.got.length]? = some bs ∧ parameterLen r q.got ≤ bs.length

/-- The completion ring entry at a link's tail (R177). -/
def tailEntry (k : LinkIf) : BitVec 64 := k.cplBase + BitVec.ofNat 64 (32 * k.cplTail)

/-- The request head of a link once the request in progress has been taken (R174). -/
def headAfter (k : LinkIf) : Nat := (k.reqHead + 1) % k.reqEntries.toNat

/-- What writing the completion of a taken request leaves of its link's interface: the head past the request, the tail
past the entry, the interrupt sent; the request in progress is the next one, or absent (R174, R177, R179). -/
def LinkAnswered (k k' : LinkIf) : Prop :=
  k' = { k with reqHead := headAfter k, cplTail := (k.cplTail + 1) % k.cplEntries.toNat, irq := .sent
                request := k'.request }
    ∧ (k'.request = none ↔ headAfter k = k.reqTail)

/-- From u, the effect of a request of link l, to t: the head advances, the completion c is written with that head at
the ring's tail, the interrupt is sent if it was armed, and the next request's entry is read; nothing else changes. -/
def Answered (l : Link) (c : Completion) (u t : State) : Prop :=
  t = { u with links := t.links, outputs := t.outputs }
    ∧ t.links.get (otherLink l) = u.links.get (otherLink l)
    ∧ LinkAnswered (u.links.get l) (t.links.get l)
    ∧ ∃ reads, t.outputs = u.outputs ++ .completion l (tailEntry (u.links.get l))
          { c with reqHead := BitVec.ofNat 16 (headAfter (u.links.get l)) }
            :: ((if (u.links.get l).irq = .armed then [.interrupt l] else []) ++ reads)
        ∧ (reads = [] ∨ ∃ a n, reads = [.requestRead l a n])

/-- From u, the effect of a request of link l that is not answered yet, to t: the head advances and the next request's
entry is read; nothing else changes (R174). -/
def Deferred (l : Link) (u t : State) : Prop :=
  t = { u with links := t.links, outputs := t.outputs }
    ∧ t.links.get (otherLink l) = u.links.get (otherLink l)
    ∧ t.links.get l = { u.links.get l with reqHead := headAfter (u.links.get l)
                                           request := (t.links.get l).request }
    ∧ (t.outputs = u.outputs ∨ ∃ a n, t.outputs = u.outputs ++ [.requestRead l a n])

/-- The result completion of a request record: its own unit and tag (12.3). -/
def resultOf (r : Record) (st : Status) : Completion := mkResult st (resultUnit r) (recTag r)

/-- The result completion of a SUBMIT or CANCEL, with its frame number (R72, R79). -/
def resultFnOf (r : Record) (st : Status) (fn : BitVec 32) : Completion := { resultOf r st with fn := fn }

/-- A link is DOWN, or its completion ring has room for a notice (R178). -/
def Hears (s : State) (l : Link) : Prop := (s.links.get l).up = false ∨ HasRoom s l

/-- The other link is DOWN, or its completion ring has room for a notice (R178). -/
def OtherHears (s : State) (l : Link) : Prop := Hears s (otherLink l)

/-- What a link with room puts out for a completion: nothing while it is DOWN, else the entry at its tail with the
request head as it stands, and one interrupt if it is ARMED (R177, R179). -/
def written (s : State) (c : Completion) (l : Link) : List Output :=
  let k := s.links.get l
  if k.up then
    .completion l (tailEntry k) { c with reqHead := BitVec.ofNat 16 k.reqHead }
      :: (if k.irq = .armed then [.interrupt l] else [])
  else []

/-- From u to t, the completion c has been written on each UP link of a list, in its order, and nothing else has
changed (R177, R179). -/
def Announced (ls : List Link) (c : Completion) (u t : State) : Prop :=
  t = { u with links := t.links, outputs := u.outputs ++ ls.flatMap (written u c) }
    ∧ ∀ l, t.links.get l = if l ∈ ls ∧ (u.links.get l).up = true then
        { u.links.get l with cplTail := ((u.links.get l).cplTail + 1) % (u.links.get l).cplEntries.toNat, irq := .sent }
      else u.links.get l

/-- The links a per-stream trap's notice goes to: the owner and the standby, or both links where the stream has no member
(R164). -/
def NoticeLinks (r : StreamRec) (ls : List Link) : Prop :=
  r.owner = none ∧ r.standby = none ∧ ls = [.A, .B]
    ∨ ∃ o, r.owner = some o ∧ (r.standby = none ∧ ls = [o] ∨ r.standby = some (otherLink o) ∧ ls = [o, otherLink o])

/-- A command that takes an UP link DOWN (R171): an unbind, a PCIe loss, a PCIe or function reset, or a failed or timed-out
read of the request in progress. -/
def LosesLink (c : Instr) (l : Link) (s : State) : Prop :=
  (s.links.get l).up = true ∧
    (c = .unbind l ∨ c = .pcieLinkLoss l ∨ c = .pcieFunctionReset l
      ∨ c = .requestReadError l ∧ (s.links.get l).request ≠ none
      ∨ c = .requestReadTimeout l ∧ ∃ q, (s.links.get l).request = some q ∧ q.expiry ≤ nowOf s)

/-- The ring geometry that a bind takes: bases aligned to 64 bytes, 16 to 1,024 request entries and 16 to 4,096
completion entries, each a power of two (R172). -/
def GeometryGood (k : LinkIf) : Prop :=
  64 ∣ k.reqBase.toNat ∧ 64 ∣ k.cplBase.toNat ∧ (∃ a, 4 ≤ a ∧ a ≤ 10 ∧ k.reqEntries.toNat = 2 ^ a)
    ∧ ∃ a, 4 ≤ a ∧ a ≤ 12 ∧ k.cplEntries.toNat = 2 ^ a

/-- The stream description that a byte string holds, if it passes the tests of R22 at a station time. -/
def goodDescription (bs : Bytes) (time : Nat) : Option StreamDesc :=
  (parseDesc bs).filter fun d => descOk d (descHeader bs) time

/-! ## Slots -/

/-- Every slot but one keeps its stream record, selector state, departure list, traps, counters and queues. -/
def SameElsewhere (i : Slot) (s t : State) : Prop :=
  ∀ j : Slot, j ≠ i → t.streams[j] = s.streams[j] ∧ t.selectors[j] = s.selectors[j] ∧ t.scheds[j] = s.scheds[j]
    ∧ t.traps.stream[j] = s.traps.stream[j] ∧ t.traps.counters[j] = s.traps.counters[j]
    ∧ ∀ l, queueOf t l j = queueOf s l j

/-! ## Selection -/

/-- A completion for each member of a stream, the owner before the standby. -/
def toMembers (st : StreamRec) (c : Completion) : List (Link × Completion) := (memberLinks st).map fun m => (m, c)

/-- The RESULT of a QUEUED record that retires, where it is owed: zero counts and zero lateness (R83, R92, R93, R98). -/
def owedResult (i : Slot) (why : Status) (f : FrameRecord) : List (Link × Completion) :=
  if f.owed then [(f.link, { mkResult why (BitVec.ofNat 8 i.val) f.tag with fn := f.fn })] else []

/-- Completions handed to their links one after another (R177). -/
def handed (cs : List (Link × Completion)) (s : State) : State := cs.foldl (fun u x => complete x.1 x.2 u) s

/-- The event of a slot's ARMED or RUNNING stream is due (R91): its frame has index k, number fn, effective offset v and
nominal interval d, under the shape that stands once a staged amendment is applied (R31, R50 to R53). -/
structure EventAt (i : Slot) (s : State) (st : StreamRec) (sh : Shape) (k v d : Nat) (l : Link) (fn : BitVec 32) :
    Prop where
  record : st = s.streams[i]
  state : st.state = .armed ∨ st.state = .running
  owner : st.owner = some l
  standby : st.standby = none ∨ st.standby = some (otherLink l)
  due : ∃ due, s.selectors[i].due = some due ∧ due ≤ nowOf s
  shape : sh = match st.staged with
    | some a => a.shape
    | none => st.shape
  place : s.scheds[i].glide = none ∧ k = st.kFirst ∧ v = sh.vStar
    ∨ ∃ g, s.scheds[i].glide = some g ∧ k = g.index + 1 ∧ v = glideTo g.offset g.interval sh.vStar
  interval : d = span st.timing k / sh.n
  number : fn = st.timing.fn0 + BitVec.ofNat 32 k
  payload : 1 ≤ sh.p

/-- A link's queue as the event of frame fn finds it (R92, R93): its stale heads, then the head that a test of R93
refuses, if any, with the status it retires with, then the rest; pr says whether the first of these is its candidate. -/
structure EventQueue (i : Slot) (s : State) (sh : Shape) (fn : BitVec 32) (m : Link)
    (old bad kept : List FrameRecord) (why : Option Status) (pr : Bool) : Prop where
  queue : queueOf s m i = old ++ bad ++ kept
  stale : ∀ f ∈ old, newer32 fn f.fn = true
  refused : why = none ∧ bad = []
    ∨ pr = false ∧ (s.links.get m).up = true ∧ ∃ f, bad = [f] ∧ f.fn = fn
      ∧ (why = some .tooLong ∧ recordTooLong sh f = true
        ∨ why = some .window ∧ recordTooLong sh f = false
          ∧ piecesInside (s.links.get m) (f.segments ++ f.ancillary) = false)
  candidate : pr = true → (s.links.get m).up = true ∧ ∃ f rest, kept = f :: rest ∧ f.fn = fn ∧ 1 ≤ f.len
    ∧ recordTooLong sh f = false ∧ piecesInside (s.links.get m) (f.segments ++ f.ancillary) = true
  absent : pr = false → kept = [] ∨ ∃ f rest, kept = f :: rest ∧ newer32 f.fn fn = true

/-- A slot's counters after a selection event that retires so many stale, too long, stray and unsent records and makes
the choice ch, with a return, a flip, or a choice that starves, each where it happens: the outcome is counted once, a
starved choice in frames STARVED alone (R81, R99, R101, R167). -/
def eventCounters (c : StreamCounters) (stale long stray unsent : Nat) (ch : Choice) (back flip starves : Bool) :
    StreamCounters :=
  { c with
    framesStale := satAdd c.framesStale stale, framesTooLong := satAdd c.framesTooLong long
    framesWindow := satAdd c.framesWindow stray, framesShadowed := satAdd c.framesShadowed unsent
    framesStarved := satAdd c.framesStarved (if ch ≠ .absent ∧ starves = true then 1 else 0)
    sentPreferred := satAdd c.sentPreferred (match ch with
      | .preferred _ _ => if starves then 0 else 1
      | _ => 0)
    filledIn := satAdd c.filledIn (match ch with
      | .fillIn _ => if starves then 0 else 1
      | _ => 0)
    repeatedAbsent := satAdd c.repeatedAbsent (if ch = .absent then 1 else 0)
    flips := satAdd c.flips (if flip then 1 else 0), returns := satAdd c.returns (if back then 1 else 0) }

/-- What the removal of the older of two held frames leaves of a slot's list and of the free blocks, and the group it
takes out, if any; the head of what is left still stands (R62, R100, R115). -/
def OlderLeaves (i : Slot) (s : State) (rest : List Group) (free : List Nat) (out : Option Group) : Prop :=
  heldCount s i < 2 ∧ rest = s.scheds[i].groups ∧ free = s.staging.free ∧ out = none
    ∨ heldCount s i = 2 ∧ ∃ pre g post, s.scheds[i].groups = pre ++ g :: post ∧ rest = pre ++ post ∧ out = some g
      ∧ (∀ h ∈ pre, isHeldPosition h = false) ∧ isHeldPosition g = true
      ∧ free = s.staging.free ++ (match g.kind with
        | .frame f => f.blocks.filterMap id
        | _ => [])
      ∧ ∀ h e, headOf rest = some (h, e) → e.arrival ≠ .never ∧ nowOf s ≤ e.deadline

/-- The fetch engine of a link once the job of a removed group has been abandoned (R115). -/
def engineWithout (i : Slot) (out : Option Group) (m : Link) (e : FetchEngine) : FetchEngine :=
  match out with
  | none => e
  | some g =>
    match g.kind with
    | .frame f => if f.record.link = m then abandonWork (.frame i g.index) e else e
    | _ => e

/-- The removal of a group drops entries (R62). -/
def dropsAny (out : Option Group) : Bool :=
  match out with
  | none => false
  | some g => decide (0 < pendingIn g)

/-- The RESULT of a group's HELD record as the group leaves, where it is owed: FETCH_FAILED, SENT or PARTIAL, with the
entries sent, the entries dropped and the greatest lateness (R66, R82, R83). -/
def retireHands (i : Slot) (g : Group) : List (Link × Completion) :=
  match g.kind with
  | .frame f =>
    if f.record.owed then
      [(f.record.link, { mkResult (if f.failed then .fetchFailed
          else if sentIn g = g.entries.length then .sent else .partialSent) (BitVec.ofNat 8 i.val) f.record.tag with
        fn := f.record.fn, sent := BitVec.ofNat 32 (sentIn g)
        dropped := BitVec.ofNat 32 (g.entries.length - sentIn g), lateness := sat32 f.lateness })]
    else []
  | _ => []

/-- The completions of the removal of a group of a stream's list, the links ls hearing of its LATE drops (R66, R82, R100,
R135, R163, R164). -/
def removalHands (i : Slot) (s : State) (ls : List Link) (out : Option Group) : List (Link × Completion) :=
  match out with
  | none => []
  | some g =>
    (if 0 < pendingIn g ∧ s.uplink.tx ≠ .down ∧ streamTrapSet s i .lateDrop = false then
        ls.map fun m => (m, { mkNotice .trap (BitVec.ofNat 8 i.val) with tag := 16, fn := g.fn })
      else [])
    ++ retireHands i g

/-- The arbiter once drops that are LATE have fallen, or none (R135). -/
def tripAfter (s : State) (drops : Bool) : Uplink :=
  if drops = true ∧ s.uplink.tx ≠ .down ∧ s.store.active.tripTime ≠ 0 then
    { s.uplink with trip := some (nowOf s + s.store.active.tripTime * 1000000) }
  else s.uplink

/-! ## Fetch and transmission -/

/-- A group of a departure list once a link is lost: of the link's frames the result is no longer owed, and the entries
that have not arrived never will; what has arrived stands (R69, R87, R112, R116). -/
def groupAfterLoss (l : Link) (g : Group) : Group :=
  match g.kind with
  | .frame f =>
    if f.record.link = l then
      { g with
        kind := .frame { f with record := { f.record with owed := false } }
        entries := g.entries.map fun e => if e.arrival = .waiting then { e with arrival := .never } else e }
    else g
  | _ => g

/-- From s to t, the bytes asked for by a read x of a job j have come in over a link, as attempt a, into a pool block b
of staging: they stand at their place and nowhere else, the read is done, its attempt is over, and the job has left the
FIFO if every read of its plan is done or abandoned (R111). -/
def ReadDone (l : Link) (a : Attempt) (j : Job) (x : Read) (b : Nat) (data : Bytes) (s t : State) : Prop :=
  (∀ o, o < x.len → Memory.read t.staging.mem (b * 16384 + x.place % 16384 + o) = byteAt data o)
    ∧ (∀ y, y < b * 16384 + x.place % 16384 ∨ b * 16384 + x.place % 16384 + x.len ≤ y →
        Memory.read t.staging.mem y = Memory.read s.staging.mem y)
    ∧ Memory.wf t.staging.mem = true ∧ t.staging.free = s.staging.free
    ∧ t.engines.get (otherLink l) = s.engines.get (otherLink l)
    ∧ t.engines.get l = { s.engines.get l with
        jobs := ((s.engines.get l).jobs.map fun y =>
          if y.id = j.id then { y with reads := y.reads.modify a.read fun z => { z with state := .done } } else y).filter
            fun y => !y.reads.all fun z => z.state == .done || z.state == .abandoned
        outstanding := (s.engines.get l).outstanding.filter fun y => y.id != a.id }

/-- A command at which a transmit opportunity falls over the state u that its own effect leaves: a packet ends, the
uplink is restored, a head becomes eligible, or the credit reaches a waiting cost (R124). -/
def OpportunityAt (c : Instr) (s u : State) : Prop :=
  c = .packetEnd ∧ s.uplink.tx = .sending ∧ u = { s with uplink := { s.uplink with tx := .idle, wire := none } }
    ∨ c = .uplinkRestore ∧ s.uplink.tx = .down ∧ u = { s with uplink := { s.uplink with tx := .idle } }
    ∨ (∃ i, c = .headEligible i ∧ (eligibleHead s i).isSome = true) ∧ s.uplink.tx = .idle ∧ u = s
    ∨ c = .creditReady ∧ s.uplink.tx = .idle ∧ u = s
        ∧ ((∃ w, s.uplink.wait = some w ∧ w.cost ≤ s.uplink.credit)
          ∨ ∃ n, s.uplink.bulkWait = some n ∧ n ≤ s.uplink.credit)

/-! ## Invariants -/

/-- The admission sum and the over-subscription condition are those of the streams and the active settings
(R27, R28). -/
def AdmissionInv (s : State) : Prop :=
  s.admission = { sum := claimSum s.streams s.store.active.floor
                  oversub := decide (admissionLimit s.store.active < claimSum s.streams s.store.active.floor) }

/-- Station Clock figures stay in their ranges, and the absorption count is 0 while no residual remains (01 1.1, R3,
R4, R7, R10). -/
def ClockInv (s : State) : Prop :=
  s.clock.carry < 1000000000 ∧ -200000 ≤ s.clock.trim ∧ s.clock.trim ≤ 200000
    ∧ -1000000000000 ≤ s.clock.residual ∧ s.clock.residual ≤ 1000000000000 ∧ s.clock.absorbed < 10000
    ∧ (s.clock.residual = 0 → s.clock.absorbed = 0)

/-- The staging bytes have the canonical form. -/
def StagingInv (s : State) : Prop := Memory.wf s.staging.mem = true

/-- The active settings stay in range and keep the cross-checks (R188, R190), the contracted rate also with the rate at
which the port runs. -/
def SettingsInv (s : State) : Prop :=
  rangesOk s.store.active = true ∧ rateFits s.store.active s.store.active.lineRate = true
    ∧ rateFits s.store.active s.uplink.portRate = true ∧ floorFits s.store.active = true

/-- The credit lies between 0 and the cap (R125). -/
def CreditInv (s : State) : Prop := s.uplink.credit ≤ creditCap s.store.active

/-- The holder of the time role is UP (R11). -/
def RoleInv (s : State) : Prop := ∀ l, s.clock.holder = some l → (s.links.get l).up = true

/-- The members of a slot's stream suit its state, and are UP (R18, R20). -/
def MembersOk (up : Link → Bool) (r : StreamRec) : Prop :=
  match r.state with
  | .closed => r.owner = none ∧ r.standby = none
  | .holding => r.owner = none ∧ r.standby = none
  | _ => ∃ l, r.owner = some l ∧ up l = true
      ∧ (r.standby = none ∨ r.standby = some (otherLink l) ∧ up (otherLink l) = true)

/-- Every slot's members suit its state (R18, R20). -/
def MembershipInv (s : State) : Prop := ∀ i : Slot, MembersOk (fun l => (s.links.get l).up) s.streams[i]

/-- END entries have arrived, and an END group stands only in a DRAINING slot's list, alone of its kind and with no FRAME or
REPEAT group (R34, R60, R61). -/
def EndInv (s : State) : Prop :=
  ∀ i : Slot,
    (∀ g ∈ s.scheds[i].groups, g.kind = .endMark ∨ g.kind = .closingEnd → ∀ e ∈ g.entries, e.arrival = .arrived)
    ∧ (∀ g ∈ s.scheds[i].groups, g.kind = .endMark → s.streams[i].state = .draining ∧ heldCount s i = 0)
    ∧ (s.scheds[i].groups.filter fun g => g.kind == .endMark).length ≤ 1

/-- No frame queue holds more than 4 records, no channel more than 32 records or 8 staging blocks (R71, R147, R150). -/
def DepthInv (s : State) : Prop :=
  (∀ l i, (queueOf s l i).length ≤ 4)
    ∧ ∀ c : Chan, s.channels[c].queue.length ≤ 32 ∧ s.channels[c].blocks.length ≤ 8

end Sys2Proof.Machine
end

