-- ==== Sys2Proof/Certificates/Slice0/Obligations.lean ====
section
/-!
DEFINITION. The statements for the provers.
-/

open Sys2Proof Sys2Proof.Machine

/-! ## The queue of commands -/

/-- A step takes the command at the front of the queue; an empty queue idles (log 8). -/
def Obligations.StepTakesFrontCommand : Prop :=
  (∀ (c : Instr) (rest : List Instr) (s : State), step { s with pending := c :: rest } = exec c { s with pending := rest })
    ∧ ∀ s : State, step { s with pending := [] } = .next { s with pending := [] }

/-- Every command completes, and leaves the commands that wait behind it as they are. -/
def Obligations.EveryCommandCompletesAndKeepsTheQueue : Prop :=
  ∀ (c : Instr) (s : State), ∃ t, exec c s = .next t ∧ t.pending = s.pending

/-! ## Power-on and station time -/

/-- Power-on (R2, R16, R18, R89, R106, R122, R144, R160, R170, R185), and the end of the recall while every slot is
CLOSED and no link is UP (R28, R144, R190); the image counts as passing while its settings do and its check matches
(log 18). -/
def Obligations.PowerOnAndRecallSetEveryBlock : Prop :=
  (∀ (up : Bool) (s : State), ∃ t, exec (.powerOnReset up) s = .next t
     ∧ t.clock = { time := 0, trim := 0, carry := 0, residual := 0, absorbed := 0, holder := none }
     ∧ (∀ l, t.links.get l = LinkIf.initial) ∧ (∀ l off, off ≠ 0x00 → linkRegister t l off = 0)
     ∧ (∀ i : Slot, t.streams[i].state = .closed ∧ t.streams[i].owner = none ∧ t.streams[i].standby = none
         ∧ t.streams[i].rate = 0 ∧ t.streams[i].staged = none ∧ t.streams[i].pendingClose = none
         ∧ t.streams[i].lastSel = none ∧ t.selectors[i] = Selector.initial
         ∧ t.scheds[i] = { glide := none, groups := [] } ∧ ∀ l, queueOf t l i = [])
     ∧ (∀ l, (t.engines.get l).jobs = [] ∧ (t.engines.get l).outstanding = [] ∧ (t.engines.get l).retry = [])
     ∧ t.staging.free = List.range 8192
     ∧ t.uplink.tx = (if up then .idle else .down) ∧ t.uplink.wire = none ∧ t.uplink.wait = none
     ∧ t.uplink.bulkWait = none ∧ t.uplink.trip = none ∧ t.uplink.rr = 3
     ∧ (∀ i : Slot, t.uplink.slotSeq[i] = 0) ∧ (∀ c : Chan, t.uplink.chanSeq[c] = 0)
     ∧ (∀ c : Chan, t.channels[c] = { config := none, queue := [], blocks := [], abandon := none, hold := .released
                                      lastSeq := none })
     ∧ (∀ d, deviceTrapSet t d = (!up && d == .uplinkDown)) ∧ (∀ i : Slot, t.traps.stream[i] = 0)
     ∧ (∀ i : Slot, t.traps.counters[i] = StreamCounters.zero) ∧ t.traps.devCounters = DeviceCounters.zero
     ∧ t.store.ready = false ∧ t.store.busy = false ∧ t.store.image.settings = s.store.image.settings
     ∧ t.store.image.checkOk = (s.store.image.checkOk && !s.store.storing)
     ∧ t.port.pointer = 0 ∧ t.outputs = s.outputs ∧ t.pending = s.pending)
  ∧ (∀ s : State, s.store.ready = false → (∀ i : Slot, s.streams[i].state = .closed) → (∀ l, (s.links.get l).up = false) →
       ∃ t, exec .settingsRecallEnd s = .next t
         ∧ (let k := if imageOk s.store.image then s.store.image.settings else Settings.factory
            t = { s with
               store := { s.store with ready := true, active := k }
               port := { s.port with address := BitVec.ofNat 7 k.i2c }
               uplink := { s.uplink with portRate := k.lineRate, credit := k.burst * 8 * 1000000 }
               admission := { sum := k.floor, oversub := decide (k.rate * k.ceiling / 100 < k.floor) }
               traps := { s.traps with device := t.traps.device } })
         ∧ ∀ d, deviceTrapSet t d = (deviceTrapSet s d || (d == .settingsDefaulted && !imageOk s.store.image)))

/-- A nominal nanosecond, first where no absorption falls, then where one falls (R3, R4, R125), under either of its rows
(log 10). -/
def Obligations.NominalNanosecondsAdvanceTheClock : Prop :=
  (∀ s : State, ClockInv s →
     ∀ n, n = (s.clock.carry + 1000000000 + s.clock.trim).toNat / 1000000000 → s.clock.time.toNat + n < 2 ^ 64 →
       (s.clock.residual ≠ 0 → s.clock.absorbed + n < 10000) →
       exec .nominalNanosecond s = .next { s with
         clock := { s.clock with
           time := s.clock.time + BitVec.ofNat 64 n
           carry := (s.clock.carry + 1000000000 + s.clock.trim).toNat % 1000000000
           absorbed := if s.clock.residual = 0 then 0 else s.clock.absorbed + n }
         uplink := { s.uplink with
           credit := if s.store.ready ∧ n ≠ 0 then
               min (s.store.active.burst * 8 * 1000000) (s.uplink.credit + n * s.store.active.rate)
             else s.uplink.credit } })
  ∧ (∀ s : State, ClockInv s → s.store.ready = true → s.uplink.credit ≤ s.store.active.burst * 8 * 1000000 →
       ∀ n, n = (s.clock.carry + 1000000000 + s.clock.trim).toNat / 1000000000 → s.clock.time.toNat + n + 1 < 2 ^ 64 →
         s.clock.residual ≠ 0 → 10000 ≤ s.clock.absorbed + n →
         ∀ m r, m = (if 0 < s.clock.residual then n + 1 else n - 1) →
           r = (if 0 < s.clock.residual then s.clock.residual - 1 else s.clock.residual + 1) →
           exec .absorption s = .next { s with
               clock := { s.clock with
                 time := s.clock.time + BitVec.ofNat 64 m
                 carry := (s.clock.carry + 1000000000 + s.clock.trim).toNat % 1000000000
                 residual := r
                 absorbed := if r = 0 then 0 else s.clock.absorbed + n - 10000 }
               uplink := { s.uplink with
                 credit := min (s.store.active.burst * 8 * 1000000) (s.uplink.credit + m * s.store.active.rate) } }
             ∧ exec .nominalNanosecond s = exec .absorption s)

/-- A TIME-SET with action TRIM in the order of R6 and R7. The ROLE requests (R11, R12, R15), the other link being DOWN or
having room for its notice. -/
def Obligations.TrimAndRoleRequestsAreAnswered : Prop :=
  (∀ (l : Link) (r : Record) (s : State), Ready s l r [] → recKind r = 13 → recAction r ≠ 2 →
     ∃ t, exec (.timeSetTrim l r) s = .next t
       ∧ (if recAction r ≠ 1 then Answered l (resultOf r .badRequest) s t
          else if s.clock.holder ≠ some l then Answered l (resultOf r .notRole) s t
          else if timeValue r < -200000 then
            Answered l (resultOf r .clamped) { s with clock := { s.clock with trim := -200000 } } t
          else if 200000 < timeValue r then
            Answered l (resultOf r .clamped) { s with clock := { s.clock with trim := 200000 } } t
          else Answered l (resultOf r .ok) { s with clock := { s.clock with trim := timeValue r } } t))
  ∧ (∀ (l : Link) (r : Record) (s : State), Ready s l r [] → recKind r = 14 →
       ((s.links.get (otherLink l)).up = false ∨ HasRoom s (otherLink l)) →
       (recAction r ≠ 2 → ∃ t, exec (.roleTake l r) s = .next t
         ∧ (if recAction r ≠ 1 then Answered l (resultOf r .badRequest) s t
            else if s.clock.holder = none then
              Answered l (resultOf r .ok) (roleNotice (otherLink l) { s with clock := { s.clock with holder := some l } }) t
            else if s.clock.holder = some l then Answered l (resultOf r .ok) s t
            else Answered l (resultOf r .roleHeld) s t))
       ∧ (recAction r = 2 → ∃ t, exec (.roleRelease l r) s = .next t
         ∧ (if s.clock.holder = some l then
              Answered l (resultOf r .ok) (roleNotice (otherLink l) { s with clock := { s.clock with holder := none } }) t
            else Answered l (resultOf r .notRole) s t)))

/-- An absorbed or refused TIME-SET with action STEP (R6, R8, R10, R4). At the first absorbed STEP the TIME_CLAMPED notice
stands before the CLAMPED RESULT, which is the model's choice (log 27). -/
def Obligations.AbsorbedStepAddsToTheResidual : Prop :=
  ∀ (l : Link) (r : Record) (s : State), Ready s l r [] → recKind r = 13 → recAction r = 2 →
    (timeValue r < -1000000000000 ∨ 1000000000000 < timeValue r →
      ∃ v, exec (.timeSetStep l r) s = .next (finish s v) ∧ Answered l (resultOf r .badRequest) s v)
    ∧ (-1000000000000 ≤ timeValue r → timeValue r ≤ 1000000000000 → s.clock.holder ≠ some l →
      ∃ v, exec (.timeSetStep l r) s = .next (finish s v) ∧ Answered l (resultOf r .notRole) s v)
    ∧ (-1000000000000 ≤ timeValue r → timeValue r ≤ 1000000000000 → s.clock.holder = some l →
      (∃ i : Slot, s.streams[i].state ≠ .closed) →
      (timeValue r = 0 → ∃ v, exec (.timeSetStep l r) s = .next (finish s v) ∧ Answered l (resultOf r .ok) s v)
      ∧ (timeValue r ≠ 0 → ∃ v, exec (.timeSetStep l r) s = .next (finish s v)
          ∧ deviceTrapSet v .timeClamped = true
          ∧ ∀ q : Int, q = max (-1000000000000) (min 1000000000000 (s.clock.residual + timeValue r)) →
            v.clock = { s.clock with residual := q, absorbed := if q = 0 then 0 else s.clock.absorbed }
            ∧ (deviceTrapSet s .timeClamped = true → Answered l (resultOf r .clamped) { s with clock := v.clock } v)
            ∧ (deviceTrapSet s .timeClamped = false → ∀ k, k = s.links.get l →
                v = fetchNextRequest l (complete l (resultOf r .clamped)
                  (raiseDevice .timeClamped (advanceHead l { s with clock := v.clock })))
                ∧ (∀ d, deviceTrapSet v d = (deviceTrapSet s d || d == .timeClamped) ∨ ∃ m, d = .cplLost m)
                ∧ (OtherHears s l → ringFull { k with cplTail := (k.cplTail + 1) % k.cplEntries.toNat } = false →
                    ∃ u w reads, u = { s with
                        clock := v.clock, traps := { s.traps with device := v.traps.device }
                        links := s.links.modify l fun k => { k with request := none, reqHead := headAfter k } }
                      ∧ Announced [.A, .B] { mkNotice .trap 255 with tag := 2 } u w
                      ∧ v = { w with links := v.links, outputs := v.outputs }
                      ∧ v.links.get (otherLink l) = w.links.get (otherLink l)
                      ∧ v.links.get l = { w.links.get l with
                          cplTail := ((w.links.get l).cplTail + 1) % k.cplEntries.toNat
                          request := (v.links.get l).request }
                      ∧ v.outputs = w.outputs ++ .completion l (tailEntry (w.links.get l))
                          { resultOf r .clamped with reqHead := BitVec.ofNat 16 (headAfter k) } :: reads
                      ∧ (reads = [] ∨ ∃ a n, reads = [.requestRead l a n])))))

/-- An immediate TIME-SET with action STEP: station time becomes the target at once, every running timer keeps its
remaining time, and credit, trim and carry stand (R8, R9); here no closing END's deadline is passed (R68). -/
def Obligations.ImmediateStepJumpsAndMovesTimers : Prop :=
  ∀ (l : Link) (r : Record) (s : State), Ready s l r [] → recKind r = 13 → recAction r = 2 →
    -1000000000000 ≤ timeValue r → timeValue r ≤ 1000000000000 → s.clock.holder = some l →
    (∀ i : Slot, s.streams[i].state = .closed) →
    ∀ target x : Int, x = timeValue r + s.clock.residual → target = nowOf s + x →
      (target < 0 ∨ 2 ^ 64 ≤ target →
        ∃ v, exec (.timeSetStep l r) s = .next (finish s v) ∧ Answered l (resultOf r .badRequest) s v)
      ∧ (0 ≤ target → target < 2 ^ 64 → (∀ i g e, slotHead s i = some (g, e) → target ≤ e.deadline) →
        ∃ v u, exec (.timeSetStep l r) s = .next (finish s v) ∧ Answered l (resultOf r .ok) u v
          ∧ u = { s with
              clock := { s.clock with time := BitVec.ofInt 64 target, residual := 0, absorbed := 0 }
              uplink := { s.uplink with trip := s.uplink.trip.map (· + x) }
              engines := u.engines, links := u.links, channels := u.channels }
          ∧ (∀ m, u.engines.get m = { s.engines.get m with
                outstanding := (s.engines.get m).outstanding.map fun a => { a with expiry := a.expiry + x } })
          ∧ (∀ m, u.links.get m = { s.links.get m with
                request := (s.links.get m).request.map fun q => { q with expiry := q.expiry + x } })
          ∧ ∀ c : Chan, u.channels[c] = { s.channels[c] with
                hold := match s.channels[c].hold with
                  | .held e => .held (e + x)
                  | .released => .released })

/-- The two halves of the station-time counter (R5): the read of the low half, in either link state, returns it and copies
the high half of the same value into its link's latch, which the read of the high half returns; nothing but that read and
power-on changes a latch. -/
def Obligations.StationTimeReadsInTwoHalves : Prop :=
  (∀ (l : Link) (s : State), ∃ t, exec (.stationTimeLowRead l) s = .next t
     ∧ t = { s with links := t.links, outputs := s.outputs ++ [.timeLow l (s.clock.time.extractLsb' 0 32)] }
     ∧ t.links.get l = { s.links.get l with latch := s.clock.time.extractLsb' 32 32 }
     ∧ t.links.get (otherLink l) = s.links.get (otherLink l)
     ∧ linkRegister t l 0x3C ++ s.clock.time.extractLsb' 0 32 = s.clock.time)
  ∧ (∀ (l : Link) (s : State) (v : BitVec 32), linkRegister s l 0x38 = s.clock.time.extractLsb' 0 32
       ∧ linkRegister s l 0x3C = (s.links.get l).latch
       ∧ exec (.registerWrite (.linkWindow l 0x38 v)) s = .next s
       ∧ exec (.registerWrite (.linkWindow l 0x3C v)) s = .next s)
  ∧ (∀ (l : Link) (c : Instr) (s t : State), exec c s = .next t → c ≠ .stationTimeLowRead l →
       (∀ up, c ≠ .powerOnReset up) → linkRegister t l 0x3C = linkRegister s l 0x3C)
  ∧ ∀ (l : Link) (up : Bool) (s t : State), exec (.powerOnReset up) s = .next t → linkRegister t l 0x3C = 0

/-- The role preference (R14): consulted when a bind makes a link UP, and at no other moment; a management write changes
the active setting at once and moves no role. -/
def Obligations.RolePreferenceActsAtABind : Prop :=
  Settings.factory.rolePref = none
  ∧ (∀ (l : Link) (s t : State), exec (.bind l) s = .next t →
       ((s.links.get l).up = false → (t.links.get l).up = true →
         t.clock = { s.clock with
           holder := if s.store.active.rolePref = some l ∧ s.clock.holder = none then some l else s.clock.holder })
       ∧ ((t.links.get l).up = false ∨ (s.links.get l).up = true → t.clock = s.clock))
  ∧ (∀ (address : BitVec 7) (pointer : Byte) (data : Bytes) (s t : State),
       exec (.settingsWrite address pointer data) s = .next t → t.clock = s.clock
         ∧ ∀ p : Option Link, acknowledged s address = true → pointer = 0x47 → data = [linkCode p] →
           t.store.active = { s.store.active with rolePref := p })
  ∧ ∀ (l : Link) (c : Instr) (s t : State), exec c s = .next t → t.clock.holder = some l → s.clock.holder ≠ some l →
      (∃ r, c = .roleTake l r) ∨ c = .bind l ∨ c = .registerWrite (.linkWindow l 0x04 1)

/-! ## Engine links -/

/-- A bind judges readiness, then the ring geometry (R172), and consults the role preference (R14, R15). -/
def Obligations.BindJudgesReadinessAndGeometry : Prop :=
  ∀ (l : Link) (s : State),
    ((s.links.get l).up = true → exec (.bind l) s = .next s)
    ∧ ((s.links.get l).up = false → s.store.ready = false →
        ∃ t, exec (.bind l) s = .next t ∧ t = { s with links := t.links }
          ∧ t.links.get l = { s.links.get l with notReady := true }
          ∧ t.links.get (otherLink l) = s.links.get (otherLink l))
    ∧ ((s.links.get l).up = false → s.store.ready = true →
        (¬ GeometryGood (s.links.get l) → ∃ t, exec (.bind l) s = .next t ∧ t = { s with links := t.links }
          ∧ t.links.get l = { s.links.get l with bindError := true }
          ∧ t.links.get (otherLink l) = s.links.get (otherLink l))
        ∧ (GeometryGood (s.links.get l) → ∃ t u, exec (.bind l) s = .next t ∧ u = { s with links := u.links }
          ∧ u.links.get l = { s.links.get l with
              up := true, fault := false, bindError := false, notReady := false, reqTail := 0, reqHead := 0
              cplTail := 0, cplHead := 0, irq := .armed, lost := 0 }
          ∧ u.links.get (otherLink l) = s.links.get (otherLink l)
          ∧ t = (if s.store.active.rolePref = some l ∧ s.clock.holder = none then
                   roleNotice .B (roleNotice .A { u with clock := { u.clock with holder := some l } })
                 else u)))

/-- A link that goes DOWN, for each cause of R171: its own interface, the time role, its queues and its fetch engine (R13,
R87, R116, R173, R175, R182). On a link that is DOWN already the causes change nothing, but that a PCIe reset returns the
geometry to 0 (R173). -/
def Obligations.LinkDownUnbindsAndFrees : Prop :=
  (∀ (l : Link) (s : State) (c : Instr) (fault pcieReset : Bool), (s.links.get l).up = true →
     (c = .unbind l ∧ fault = false ∧ pcieReset = false
       ∨ c = .pcieLinkLoss l ∧ fault = false ∧ pcieReset = false
       ∨ c = .pcieFunctionReset l ∧ fault = false ∧ pcieReset = true
       ∨ c = .requestReadError l ∧ (s.links.get l).request ≠ none ∧ fault = true ∧ pcieReset = false
       ∨ c = .requestReadTimeout l ∧ (∃ q, (s.links.get l).request = some q ∧ q.expiry ≤ nowOf s)
           ∧ fault = true ∧ pcieReset = false) →
     ∃ t, exec c s = .next t
       ∧ t.links.get l = { s.links.get l with
           up := false, fault := (s.links.get l).fault || fault, reqTail := 0, reqHead := 0, cplTail := 0, cplHead := 0
           request := none, windows := Vector.replicate 8 { base := 0, limit := 0, enabled := false }, lost := 0
           reqBase := if pcieReset then 0 else (s.links.get l).reqBase
           reqEntries := if pcieReset then 0 else (s.links.get l).reqEntries
           cplBase := if pcieReset then 0 else (s.links.get l).cplBase
           cplEntries := if pcieReset then 0 else (s.links.get l).cplEntries }
       ∧ t.clock = { s.clock with holder := if s.clock.holder = some l then none else s.clock.holder }
       ∧ (∀ i, queueOf t l i = []) ∧ (t.engines.get l).jobs = [] ∧ (t.engines.get l).outstanding = []
       ∧ (t.engines.get l).retry = [] ∧ deviceTrapSet t (.linkDown l) = true
       ∧ (t.links.get (otherLink l)).up = (s.links.get (otherLink l)).up
       ∧ (t.links.get (otherLink l)).windows = (s.links.get (otherLink l)).windows
       ∧ t.store = s.store ∧ t.port = s.port ∧ t.staging.mem = s.staging.mem ∧ t.pending = s.pending
       ∧ ∀ c : Chan, t.channels[c].config = s.channels[c].config ∧ t.channels[c].hold = s.channels[c].hold
           ∧ t.channels[c].lastSeq = s.channels[c].lastSeq ∧ ∀ x ∈ t.channels[c].queue, x.link ≠ l)
  ∧ (∀ (l : Link) (s : State), (s.links.get l).up = false →
       exec (.unbind l) s = .next s ∧ exec (.pcieLinkLoss l) s = .next s
       ∧ exec (.requestReadError l) s = .next s ∧ exec (.requestReadTimeout l) s = .next s
       ∧ ∃ t, exec (.pcieFunctionReset l) s = .next t ∧ t = { s with links := t.links }
         ∧ t.links.get l = { s.links.get l with reqBase := 0, reqEntries := 0, cplBase := 0, cplEntries := 0 }
         ∧ t.links.get (otherLink l) = s.links.get (otherLink l))

/-- The membership of a stream when a link goes DOWN by any cause (R43, R44, R45), before the transmit opportunity that may
follow; and its departure list: the lost link's frames stay with their results no longer owed, what has arrived of them
stands and the rest never will (R69, R87, R112, R116), a head that will not arrive is dropped at once (R133), and a
DRAINING stream that loses its last member is dropped CLOSED behind its closing END marker (R37, R44, R67). -/
def Obligations.LinkDownMovesMembership : Prop :=
  ∀ (l : Link) (s : State) (c : Instr), LosesLink c l s → MembershipInv s → EndInv s →
    ∃ v t, exec c s = .next t ∧ t = { finish s v with links := t.links } ∧ (t.links.get l).up = false ∧
      ∀ i : Slot,
        (s.streams[i].owner = some l → s.streams[i].standby = some (otherLink l) →
          v.streams[i].state = s.streams[i].state ∧ v.streams[i].owner = some (otherLink l)
            ∧ v.streams[i].standby = none ∧ v.selectors[i].preferred = .owner ∧ v.selectors[i].miss = 0
            ∧ v.selectors[i].present = 0)
        ∧ (s.streams[i].owner = some l → s.streams[i].standby = none →
          v.streams[i].owner = none ∧ v.streams[i].standby = none ∧ v.streams[i].staged = none
            ∧ (s.streams[i].state = .running → v.streams[i].state = .holding ∧ v.streams[i].holdCount = 0
                ∧ v.streams[i].rate = s.streams[i].rate ∧ streamTrapSet v i .orphaned = true)
            ∧ (s.streams[i].state = .armed → v.streams[i].state = .closed)
            ∧ (s.streams[i].state = .draining → v.streams[i].state = .closed))
        ∧ (s.streams[i].owner = some (otherLink l) → s.streams[i].standby = some l →
          v.streams[i].state = s.streams[i].state ∧ v.streams[i].owner = some (otherLink l)
            ∧ v.streams[i].standby = none ∧ v.selectors[i].preferred = .owner ∧ v.selectors[i].miss = 0
            ∧ v.selectors[i].present = 0)
        ∧ (s.streams[i].owner ≠ some l → s.streams[i].standby ≠ some l →
          v.streams[i].state = s.streams[i].state ∧ v.streams[i].owner = s.streams[i].owner
            ∧ v.streams[i].standby = s.streams[i].standby)
        ∧ (∀ g ∈ v.scheds[i].groups, ∀ f, g.kind = .frame f → f.record.link = l →
            f.record.owed = false ∧ ∀ e ∈ g.entries, e.arrival ≠ .waiting)
        ∧ (∀ g e, slotHead v i = some (g, e) → e.arrival ≠ .never)
        ∧ (s.streams[i].state ≠ .draining ∨ s.streams[i].owner ≠ some l ∨ s.streams[i].standby ≠ none →
          (∀ g e, slotHead s i = some (g, e) →
            e.arrival = .arrived ∨ e.arrival = .waiting ∧ ∀ f, g.kind = .frame f → f.record.link ≠ l) →
          v.scheds[i] = {
              glide := if s.streams[i].state = .armed ∧ s.streams[i].owner = some l ∧ s.streams[i].standby = none then none
                else s.scheds[i].glide
              groups := s.scheds[i].groups.map (groupAfterLoss l) }
            ∧ v.traps.counters[i] = s.traps.counters[i])
        ∧ (s.streams[i].state = .draining → s.streams[i].owner = some l → s.streams[i].standby = none →
          ∀ g, s.scheds[i].glide = some g →
            v.scheds[i] = { glide := none
                            groups := s.scheds[i].groups.filter isClosingEnd ++ [
                              { kind := .closingEnd, index := g.index, fn := frameNumber s.streams[i].timing g.index
                                interval := g.interval, template := s.streams[i].shape.template
                                entries := [
                                  { kind := .markEnd, index := 0, sched := nowOf s
                                    elig := nowOf s - (s.streams[i].shape.leadPk * g.interval : Nat)
                                    deadline := nowOf s + (s.streams[i].shape.gracePk * g.interval : Nat)
                                    place := 0, len := 0, arrival := .arrived, done := .pending }] }] }
            ∧ v.traps.counters[i].dropsClosed = satAdd s.traps.counters[i].dropsClosed
                (pendingCount (s.scheds[i].groups.filter fun g => !isClosingEnd g)))

/-- The notices of a link's loss on the link o that survives it, in the order of R183: the ROLE notice naming NONE, the
MEMBERSHIP notice of each slot the lost link was a member of, followed by ORPHANED's where the slot has just become
HOLDING, and the lost link's own trap; each trap's only at its first setting (R15, R42, R164), that of the first of two
losses included (R184, log 38). What the loss makes settle stands before them: its RESULTs as R183 has it, its TRAP notices
as the model chooses (log 27). -/
def Obligations.LossNoticesStandInOrder : Prop :=
  ∀ (l o : Link) (s : State) (c : Instr), o = otherLink l → LosesLink c l s → MembershipInv s → EndInv s →
    ∃ v t, exec c s = .next t ∧ t = { finish s v with links := t.links } ∧
      ∀ (role lost : List Completion) (member : Slot → List Completion),
        role = (if s.clock.holder = some l then [mkNotice .role 255] else []) →
        (∀ i : Slot, member i = if s.streams[i].owner = some l ∨ s.streams[i].standby = some l then
            { mkNotice .membership (BitVec.ofNat 8 i.val) with
              b26 := stateCode v.streams[i].state, b27 := linkCode v.streams[i].owner
              b28 := linkCode v.streams[i].standby, b29 := roleCode v.selectors[i].preferred }
            :: (if s.streams[i].state = .running ∧ v.streams[i].state = .holding
                  ∧ streamTrapSet s i .orphaned = false then
                [{ mkNotice .trap (BitVec.ofNat 8 i.val) with tag := 20 }] else [])
          else []) →
        lost = (if deviceTrapSet s (.linkDown l) = true then []
          else [{ mkNotice .trap 255 with tag := if l = .A then 6 else 7 }]) →
        ∃ u settled, v = (role ++ allSlots.flatMap member ++ lost).foldl (fun w x => complete o x w) u
          ∧ u.outputs = s.outputs ++ settled ∧ (u.links.get o).up = (s.links.get o).up
          ∧ (∀ d ∈ settled, ∀ m a x, d = .completion m a x → m = o ∧ ∀ ca, x.kind = .notice ca → ca = .trap)
          ∧ (AdmissionInv s →
              (∀ i : Slot, ∀ g ∈ s.scheds[i].groups,
                s.streams[i].state ≠ .draining ∧ ∀ e ∈ g.entries, e.arrival = .arrived) →
              settled = [] ∧ u.links.get o = s.links.get o)

/-- The register window of a link: geometry is written only while DOWN (R172), bind control, tail and head act by their own
rules (log 19), and other offsets take no write (R193). -/
def Obligations.RegisterWindowActsAsListed : Prop :=
  (∀ (l : Link) (off : BitVec 8) (v : BitVec 32) (s : State), off.toNat ∈ [0x08, 0x0C, 0x10, 0x1C, 0x20, 0x24] →
     ((s.links.get l).up = true → exec (.registerWrite (.linkWindow l off v)) s = .next s)
     ∧ ((s.links.get l).up = false → ∃ t, exec (.registerWrite (.linkWindow l off v)) s = .next t
         ∧ t = { s with links := t.links } ∧ t.links.get (otherLink l) = s.links.get (otherLink l)
         ∧ t.links.get l = { s.links.get l with
             reqBase := (t.links.get l).reqBase, reqEntries := (t.links.get l).reqEntries
             cplBase := (t.links.get l).cplBase, cplEntries := (t.links.get l).cplEntries }
         ∧ ∀ x, x ∈ [0x08, 0x0C, 0x10, 0x1C, 0x20, 0x24] →
             linkRegister t l x = if x = off.toNat then v else linkRegister s l x))
  ∧ (∀ (l : Link) (v : BitVec 32) (s : State),
       exec (.registerWrite (.linkWindow l 0x04 1)) s = exec (.bind l) s
       ∧ exec (.registerWrite (.linkWindow l 0x04 0)) s = exec (.unbind l) s
       ∧ (v ≠ 0 → v ≠ 1 → exec (.registerWrite (.linkWindow l 0x04 v)) s = .next s)
       ∧ exec (.registerWrite (.linkWindow l 0x14 v)) s = exec (.requestTailWrite l v) s
       ∧ exec (.registerWrite (.linkWindow l 0x28 v)) s = exec (.completionHeadWrite l v) s
       ∧ (∀ off : BitVec 8, off.toNat ∈ [0x00, 0x18, 0x2C, 0x30, 0x34, 0x38, 0x3C] →
           exec (.registerWrite (.linkWindow l off v)) s = .next s)
       ∧ ∀ (address : BitVec 7) (pointer : Byte) (data : Bytes) (row : Nat), row = pointer.toNat / 8 →
           (8 ≤ row → row < 12 →
             exec (.registerWrite (.map address pointer data)) s = exec (.settingsWrite address pointer data) s)
           ∧ (row = 2 → exec (.registerWrite (.map address pointer data)) s = exec (.mapTrapClear address pointer data) s)
           ∧ (wrote (placed pointer data) 0x70 1 = true →
             exec (.registerWrite (.map address pointer data)) s = exec (.commit address pointer data) s)
           ∧ (wrote (placed pointer data) 0x71 1 = true →
             exec (.registerWrite (.map address pointer data)) s = exec (.pacingReset address pointer data) s)
           ∧ (row ≠ 2 → row ≠ 14 → row < 8 ∨ 12 ≤ row → acknowledged s address = true →
             exec (.registerWrite (.map address pointer data)) s = .next (finish s { s with port := { s.port with
               latch := none, pointer := BitVec.ofNat 8 (row * 8 + (pointer.toNat + data.length) % 8) } })))

/-- A write of the request tail, after which an idle interface reads the entry at its head (R172, R174), and a write of the
completion head, which rearms the interrupt and sends one at once if completions remain (R178, R179). -/
def Obligations.RingPointersAreWrittenModuloTheRing : Prop :=
  (∀ (l : Link) (v : BitVec 32) (s : State),
     ((s.links.get l).up = false → exec (.requestTailWrite l v) s = .next s)
     ∧ ((s.links.get l).up = true → ∀ k n, k = s.links.get l → n = v.toNat % k.reqEntries.toNat →
         ∃ t, exec (.requestTailWrite l v) s = .next t ∧ t = { s with links := t.links, outputs := t.outputs }
           ∧ t.links.get (otherLink l) = s.links.get (otherLink l)
           ∧ (if k.request = none ∧ k.reqHead ≠ n then
                t.outputs = s.outputs ++ [.requestRead l (k.reqBase + BitVec.ofNat 64 (64 * k.reqHead)) 64]
                  ∧ t.links.get l = { k with
                      reqTail := n, request := some { record := none, got := [], expiry := nowOf s + 200000 } }
              else t.outputs = s.outputs ∧ t.links.get l = { k with reqTail := n })))
  ∧ (∀ (l : Link) (v : BitVec 32) (s : State),
       ((s.links.get l).up = false → exec (.completionHeadWrite l v) s = .next s)
       ∧ ((s.links.get l).up = true → ∀ k e h, k = s.links.get l → e = k.cplEntries.toNat → h = v.toNat % e →
           ∃ t, exec (.completionHeadWrite l v) s = .next t ∧ t = { s with links := t.links, outputs := t.outputs }
             ∧ t.links.get (otherLink l) = s.links.get (otherLink l)
             ∧ (if 0 < (k.cplTail + e - h) % e then
                  t.links.get l = { k with cplHead := h, irq := .sent } ∧ t.outputs = s.outputs ++ [.interrupt l]
                else t.links.get l = { k with cplHead := h, irq := .armed } ∧ t.outputs = s.outputs)))

/-- What handing a completion to a link does: nothing while it is DOWN; with room, the entry written at the tail with
the request head as it stands, and one interrupt if ARMED; at a full ring, the discard counted and CPL_LOST set, whose
first setting writes its notice on the other link and loses it on this one, so that the lost count rises by 2, or by 3
where the other ring is full too and its own CPL_LOST clear (R177, R178, R179, R161, R162, R164; the chain is log 37). -/
def Obligations.CompletionIsWrittenDiscardedOrIgnored : Prop :=
  ∀ (l : Link) (c : Completion) (s : State), ∀ k, k = s.links.get l →
    (k.up = false → complete l c s = s)
    ∧ (HasRoom s l → ∀ t, t = complete l c s →
        t = { s with links := t.links, outputs := t.outputs }
        ∧ t.links.get (otherLink l) = s.links.get (otherLink l)
        ∧ t.links.get l = { k with cplTail := (k.cplTail + 1) % k.cplEntries.toNat, irq := .sent }
        ∧ t.outputs = s.outputs ++ .completion l (k.cplBase + BitVec.ofNat 64 (32 * k.cplTail))
            { c with reqHead := BitVec.ofNat 16 k.reqHead } :: (if k.irq = .armed then [.interrupt l] else []))
    ∧ (k.up = true → ringFull k = true → ∀ t, t = complete l c s →
        (t.links.get l).cplTail = k.cplTail ∧ (t.links.get l).irq = k.irq
        ∧ (∀ d ∈ t.outputs.drop s.outputs.length, ∀ a x, d ≠ .completion l a x)
        ∧ deviceTrapSet t (.cplLost l) = true
        ∧ (deviceTrapSet s (.cplLost l) = true →
            t = { s with links := t.links } ∧ t.links.get (otherLink l) = s.links.get (otherLink l)
            ∧ t.links.get l = { k with lost := satAdd k.lost 1 })
        ∧ (deviceTrapSet s (.cplLost l) = false → ∀ o j code, o = otherLink l → j = s.links.get o →
            code = (if l = .A then 4 else 5) →
            t = { s with links := t.links, outputs := t.outputs, traps := { s.traps with device := t.traps.device } }
            ∧ (j.up = false → t.links.get l = { k with lost := satAdd (satAdd k.lost 1) 1 } ∧ t.links.get o = j
                ∧ t.outputs = s.outputs)
            ∧ (HasRoom s o → t.links.get l = { k with lost := satAdd (satAdd k.lost 1) 1 }
                ∧ t.links.get o = { j with cplTail := (j.cplTail + 1) % j.cplEntries.toNat, irq := .sent }
                ∧ t.outputs = s.outputs ++ written s { mkNotice .trap 255 with tag := code } o)
            ∧ (j.up = true → ringFull j = true → t.outputs = s.outputs ∧ deviceTrapSet t (.cplLost o) = true
                ∧ (deviceTrapSet s (.cplLost o) = true → t.links.get l = { k with lost := satAdd (satAdd k.lost 1) 1 }
                    ∧ t.links.get o = { j with lost := satAdd j.lost 1 })
                ∧ (deviceTrapSet s (.cplLost o) = false →
                    t.links.get l = { k with lost := satAdd (satAdd (satAdd k.lost 1) 1) 1 }
                    ∧ t.links.get o = { j with lost := satAdd (satAdd j.lost 1) 1 }))))

/-- NOP and a request of an unknown kind (R176); at a full completion ring a request is taken and its RESULT lost and
counted (R178). A WINDOW request (R181), and when a range lies inside one enabled window (R180). -/
def Obligations.InterfaceRequestsAreAnswered : Prop :=
  ((∀ (l : Link) (r : Record) (s : State), Ready s l r [] →
      (recKind r = 12 → ∃ t, exec (.nop l r) s = .next t
        ∧ Answered l (mkResult .ok 255 (recTag r)) s t)
      ∧ (recKind r = 0 ∨ 16 < recKind r → ∃ t, exec (.unknownKind l r) s = .next t
        ∧ Answered l (mkResult .badRequest (recUnit r) (recTag r)) s t))
   ∧ (∀ (l : Link) (r : Record) (s : State), requestPending s l r [] = true → ringFull (s.links.get l) = true →
        recKind r = 12 → deviceTrapSet s (.cplLost l) = true →
        ∃ t, exec (.nop l r) s = .next t
          ∧ t = { s with links := t.links, outputs := t.outputs }
          ∧ t.links.get (otherLink l) = s.links.get (otherLink l)
          ∧ t.links.get l = { s.links.get l with
              reqHead := headAfter (s.links.get l), lost := satAdd (s.links.get l).lost 1
              request := (t.links.get l).request }
          ∧ ∀ d ∈ t.outputs.drop s.outputs.length, ∀ a x, d ≠ .completion l a x))
  ∧ ((∀ (l : Link) (r : Record) (s : State), Ready s l r [] → recKind r = 11 →
        ∃ t, exec (.window l r) s = .next t
          ∧ (if h : (recByte r 8).toNat < 8 ∧ (recByte r 9 = 0 ∨ recByte r 9 = 1 ∧ (recU64 r 16).toNat ≤ (recU64 r 24).toNat) then
               ∃ u, u = { s with links := u.links } ∧ Answered l (resultOf r .ok) u t
                 ∧ u.links.get (otherLink l) = s.links.get (otherLink l)
                 ∧ u.links.get l = { s.links.get l with
                     windows := (s.links.get l).windows.set (recByte r 8).toNat
                       { base := recU64 r 16, limit := recU64 r 24, enabled := recByte r 9 == 1 } h.1 }
             else Answered l (resultOf r .badRequest) s t))
     ∧ (∀ (k : LinkIf) (a : BitVec 64) (n : Nat), 1 ≤ n →
          (rangeInside k a n = true ↔ ∃ j : Fin 8, k.windows[j].enabled = true ∧ k.windows[j].base.toNat ≤ a.toNat
            ∧ a.toNat + n - 1 ≤ k.windows[j].limit.toNat)))

/-- A request that has parameters in engine memory: the read that follows what its reads have returned so far is made, once,
while the request stays in progress; with no further reply the request waits; a reply shorter than was asked for is the
request-fetch fault, whatever the stream or the channel has become since the read was made (R72, R174, R175; the form of
the commands is log 11). -/
def Obligations.ParameterReadsAreMadeAndMustBeComplete : Prop :=
  ∀ (l : Link) (r : Record) (s : State) (q : RequestInProgress) (got : List Bytes) (addr : BitVec 64) (len : Nat)
    (c : List Bytes → Instr) (asks : Prop),
    (s.links.get l).up = true → (s.links.get l).request = some q →
    (recKind r = 1 ∧ c = .openStream l r ∧ got = [] ∧ addr = recU64 r 8 ∧ len = 256 ∧ (asks ↔ True)
      ∨ recKind r = 2 ∧ c = .amend l r ∧ got = [] ∧ addr = recU64 r 8 ∧ len = 64
          ∧ (asks ↔ ∃ i : Slot, recUnit r = BitVec.ofNat 8 i.val ∧ s.streams[i].owner = some l
              ∧ (s.streams[i].state = .armed ∨ s.streams[i].state = .running))
      ∨ recKind r = 2 ∧ c = .amend l r ∧ (∃ block, got = [block] ∧ addr = BitVec.ofNat 64 (leField block 24 8)
          ∧ len = leField block 12 1
          ∧ (asks ↔ ∃ (i : Slot) (sh : Shape), recUnit r = BitVec.ofNat 8 i.val ∧ s.streams[i].owner = some l
              ∧ (s.streams[i].state = .armed ∨ s.streams[i].state = .running)
              ∧ rangeInside (s.links.get l) (recU64 r 8) 64 = true ∧ 64 ≤ block.length
              ∧ parseAmendment s.streams[i].timing.mode block [] = some sh ∧ shapeOk s.streams[i].timing sh len = true))
      ∨ recKind r = 8 ∧ recAction r = 1 ∧ c = .bulkSetupSet l r ∧ got = [] ∧ addr = recU64 r 16 ∧ len = 128
          ∧ (asks ↔ ∃ i : Chan, recUnit r = BitVec.ofNat 8 i.val ∧ s.channels[i].queue = []
              ∧ s.channels[i].abandon = none)
      ∨ recKind r = 6 ∧ recInline r = false ∧ c = .submit l r ∧ got = [] ∧ addr = recU64 r 24
          ∧ len = 16 * (submitSegs r + submitAncs r)
          ∧ (asks ↔ ∃ i : Slot, recUnit r = BitVec.ofNat 8 i.val ∧ submitBad r = false
              ∧ (s.streams[i].state = .armed ∨ s.streams[i].state = .running)
              ∧ (s.streams[i].owner = some l ∨ s.streams[i].standby = some l))
      ∨ recKind r = 9 ∧ recInline r = false ∧ c = .bulkPost l r ∧ got = [] ∧ addr = recU64 r 16 ∧ len = 16 * postSegs r
          ∧ (asks ↔ ∃ i : Chan, recUnit r = BitVec.ofNat 8 i.val ∧ postBad r = false ∧ postLen r ≤ 16777216
              ∧ s.channels[i].config ≠ none ∧ s.channels[i].queue.length < 32)) →
    (q.got = [] → (q.record = none ∨ q.record = some r ∧ got ≠ []) → asks → rangeInside (s.links.get l) addr len = true →
      ∃ t, exec (c got) s = .next t
        ∧ t = { s with links := t.links, outputs := s.outputs ++ [.requestRead l addr len] }
        ∧ t.links.get (otherLink l) = s.links.get (otherLink l)
        ∧ t.links.get l = { s.links.get l with
            request := some { record := some r, got := got, expiry := nowOf s + 200000 } })
    ∧ (q.record = some r → q.got = got →
        exec (c got) s = .next s
        ∧ ∀ (bs : Bytes) (rest : List Bytes), bs.length < len →
          ∃ t, exec (c (got ++ bs :: rest)) s = .next t ∧ exec (.requestReadError l) s = .next t
            ∧ (t.links.get l).up = false ∧ (t.links.get l).fault = true ∧ (t.links.get l).request = none
            ∧ (t.links.get l).reqHead = 0)

/-! ## Streams -/

/-- The tests of R22 on a stream description, on its fields (12.2.1), at the station time of taking. k_first is the lowest
frame index whose selection time is not below that time (R25), and the reserved rate is the quotient of R26 rounded up
once. -/
def Obligations.OpenTestsFirstFrameAndReservedRate : Prop :=
  (∀ (bs : Bytes) (now pn pd mode place la lt aMax lead n p grace sw hold v e0 fl short spn h : Nat),
     pn = leField bs 0 4 → pd = leField bs 4 4 → mode = leField bs 8 1 → place = leField bs 9 1 → la = leField bs 10 2 →
     lt = leField bs 12 2 → aMax = leField bs 14 1 → lead = leField bs 15 1 → n = leField bs 16 2 → p = leField bs 18 2 →
     grace = leField bs 20 1 → sw = leField bs 21 1 → hold = leField bs 24 2 → v = leField bs 28 4 →
     e0 = leField bs 32 8 → fl = leField bs 44 4 → h = leField bs 48 1 → short = pn * 1000000000 / pd →
     spn = (if mode = 2 then short * la / lt else short) →
     ((∃ d, goodDescription bs now = some d) ↔
       (1 ≤ pn ∧ pn ≤ 1000000) ∧ (1 ≤ pd ∧ pd ≤ 1000000)
       ∧ (1000000 * pd ≤ pn * 1000000000 ∧ pn * 1000000000 ≤ 1000000000 * pd)
       ∧ (mode = 1 ∨ mode = 2 ∧ (2 ≤ lt ∧ lt ≤ 4096) ∧ (1 ≤ la ∧ la ≤ lt - 1))
       ∧ (1 ≤ n ∧ n ≤ 32768) ∧ (64 ≤ p ∧ p ≤ 8192) ∧ aMax ≤ 16 ∧ (place = 1 ∨ place = 2 ∧ mode = 2)
       ∧ (14 ≤ h ∧ h ≤ 96)
       ∧ leField bs 49 1 + 2 ≤ h ∧ leField bs 52 1 + 2 ≤ h ∧ leField bs 57 1 + 2 ≤ h
       ∧ leField bs 56 1 < h ∧ leField bs 53 1 ≤ leField bs 56 1
       ∧ spn / n ≠ 0 ∧ v < short ∧ (50000 ≤ fl ∧ fl ≤ short) ∧ lead ≤ 15 ∧ (1 ≤ grace ∧ grace ≤ 64)
       ∧ (1 ≤ sw ∧ sw ≤ 8) ∧ hold ≤ 600 ∧ e0 < 2 ^ 62
       ∧ ∃ k, k < 2 ^ 39 ∧ now + fl ≤ e0 + k * pn * 1000000000 / pd + v))
  ∧ ((∀ (t : Timing) (v now k : Nat), 1 ≤ t.pn → 1 ≤ t.pd →
        (firstIndex t v now ≤ k ↔
          (now : Int) ≤ ((t.epoch + k * t.pn * 1000000000 / t.pd : Nat) : Int) + v - t.fetchLead))
     ∧ (∀ (t : Timing) (sh : Shape) (r : Nat), 1 ≤ t.pn →
          (reservedRate t sh ≤ r ↔
            (sh.n + sh.aMax) * (sh.template.bytes.length + 20 + sh.p + 24) * 8 * t.pd ≤ r * (t.pn * 1000))))

/-- An OPEN in the order of R21 to R24, with its parameters at hand. -/
def Obligations.OpenIsJudgedInOrder : Prop :=
  ∀ (l : Link) (r : Record) (s : State), recKind r = 1 →
    (∀ replies, AtHand s l r replies → rangeInside (s.links.get l) (recU64 r 8) 256 = false →
      ∃ t, exec (.openStream l r replies) s = .next t ∧ Answered l (resultOf r .window) s t)
    ∧ ∀ bs : Bytes, AtHand s l r [bs] → rangeInside (s.links.get l) (recU64 r 8) 256 = true → 256 ≤ bs.length →
      ∃ t, exec (.openStream l r [bs]) s = .next t
        ∧ (32 ≤ (recUnit r).toNat ∧ recUnit r ≠ 255 ∨ goodDescription bs s.clock.time.toNat = none →
            Answered l (resultOf r .badRequest) s t)
        ∧ ∀ d, goodDescription bs s.clock.time.toNat = some d →
          (∀ i : Slot, recUnit r = BitVec.ofNat 8 i.val → s.streams[i].state ≠ .closed →
            Answered l (resultOf r .wrongState) s t)
          ∧ (recUnit r = 255 → (∀ i : Slot, s.streams[i].state ≠ .closed) → Answered l (resultOf r .noSlot) s t)
          ∧ ∀ i : Slot, s.streams[i].state = .closed →
            (recUnit r = BitVec.ofNat 8 i.val ∨ recUnit r = 255 ∧ ∀ j : Slot, j < i → s.streams[j].state ≠ .closed) →
            ∀ sum, sum = claimSum s.streams s.store.active.floor + reservedRate d.timing d.shape →
            (s.store.active.rate * s.store.active.ceiling / 100 < sum → Answered l (resultOf r .noCapacity) s t)
            ∧ (sum ≤ s.store.active.rate * s.store.active.ceiling / 100 →
                ∃ u, Answered l { resultOf r .ok with unit := BitVec.ofNat 8 i.val } u t
                  ∧ u = { s with
                      streams := u.streams, selectors := u.selectors, scheds := u.scheds
                      traps := { s.traps with stream := u.traps.stream, counters := u.traps.counters }
                      admission := { sum := sum, oversub := false } }
                  ∧ SameElsewhere i s u
                  ∧ u.streams[i] =
                      { state := .armed, owner := some l, standby := none, timing := d.timing, failover := d.failover
                        kFirst := firstIndex d.timing d.shape.vStar s.clock.time.toNat, shape := d.shape
                        rate := reservedRate d.timing d.shape, holdCount := 0, staged := none, pendingClose := none
                        lastSel := none }
                  ∧ u.selectors[i] =
                      { preferred := .owner, miss := 0, present := 0, marks := ⟨false, false⟩
                        due := some ((frameStart d.timing u.streams[i].kFirst : Int) + d.shape.vStar
                          - d.timing.fetchLead) }
                  ∧ u.scheds[i] = { glide := none, groups := s.scheds[i].groups }
                  ∧ u.traps.stream[i] = 0 ∧ u.traps.counters[i] = StreamCounters.zero)

/-- An AMEND in the order of R29, staged as R30 states. -/
def Obligations.AmendIsStagedOrRefusedInOrder : Prop :=
  ∀ (l : Link) (r : Record) (s : State), recKind r = 2 →
    (∀ replies st, AtHand s l r replies →
      (32 ≤ (recUnit r).toNat ∧ st = .badRequest
        ∨ ∃ i : Slot, recUnit r = BitVec.ofNat 8 i.val ∧
          (s.streams[i].state ≠ .armed ∧ s.streams[i].state ≠ .running ∧ st = .wrongState
            ∨ (s.streams[i].state = .armed ∨ s.streams[i].state = .running) ∧
              (s.streams[i].owner ≠ some l ∧ st = .notMember
                ∨ s.streams[i].owner = some l ∧ rangeInside (s.links.get l) (recU64 r 8) 64 = false
                  ∧ st = .window))) →
      ∃ t, exec (.amend l r replies) s = .next t ∧ Answered l (resultOf r st) s t)
    ∧ ∀ (i : Slot) (bs : Bytes), recUnit r = BitVec.ofNat 8 i.val →
      (s.streams[i].state = .armed ∨ s.streams[i].state = .running) → s.streams[i].owner = some l →
      rangeInside (s.links.get l) (recU64 r 8) 64 = true → 64 ≤ bs.length →
      (∀ rest, AtHand s l r (bs :: rest) →
        (∀ sh, parseAmendment s.streams[i].timing.mode bs [] = some sh →
          shapeOk s.streams[i].timing sh (leField bs 12 1) = false) →
        ∃ t, exec (.amend l r (bs :: rest)) s = .next t ∧ Answered l (resultOf r .badRequest) s t)
      ∧ ∀ sh, parseAmendment s.streams[i].timing.mode bs [] = some sh →
        shapeOk s.streams[i].timing sh (leField bs 12 1) = true →
        (∀ rest, AtHand s l r (bs :: rest) →
          rangeInside (s.links.get l) (BitVec.ofNat 64 (leField bs 24 8)) (leField bs 12 1) = false →
          ∃ t, exec (.amend l r (bs :: rest)) s = .next t ∧ Answered l (resultOf r .window) s t)
        ∧ ∀ tm : Bytes, AtHand s l r [bs, tm] → leField bs 12 1 ≤ tm.length →
          rangeInside (s.links.get l) (BitVec.ofNat 64 (leField bs 24 8)) (leField bs 12 1) = true →
          ∀ sh' rate sum, sh' = { sh with template := parseTemplate bs 12 tm } →
          rate = reservedRate s.streams[i].timing sh' →
          sum = claimSum s.streams s.store.active.floor - streamClaim s.streams[i] + max s.streams[i].rate rate →
          (s.store.active.rate * s.store.active.ceiling / 100 < sum →
            ∃ t, exec (.amend l r [bs, tm]) s = .next t ∧ Answered l (resultOf r .noCapacity) s t)
          ∧ (sum ≤ s.store.active.rate * s.store.active.ceiling / 100 →
            ∃ t u, exec (.amend l r [bs, tm]) s = .next t
              ∧ u = { s with streams := u.streams, admission := { sum := sum, oversub := false } }
              ∧ SameElsewhere i s u
              ∧ u.streams[i] = { s.streams[i] with
                  staged := some { shape := sh', rate := rate, tag := recTag r, link := l } }
              ∧ (s.streams[i].staged = none → Deferred l u t)
              ∧ ∀ old, s.streams[i].staged = some old →
                ∀ c, c = mkResult .superseded (BitVec.ofNat 8 i.val) old.tag →
                  (old.link = l → Answered l c u t)
                  ∧ (old.link = otherLink l → OtherHears s l → Deferred l (complete (otherLink l) c u) t))

/-- A graceful CLOSE (R33, R34), and a CLOSE with no known mode; a HOLDING stream's is in
ImmediateCloseEndsTheStream. -/
def Obligations.GracefulCloseDrainsOrCloses : Prop :=
  ∀ (l : Link) (r : Record) (s : State), Ready s l r [] → recKind r = 3 → recAction r ≠ 2 → AdmissionInv s →
    ∃ v, exec (.closeGraceful l r) s = .next (finish s v)
      ∧ (32 ≤ (recUnit r).toNat ∨ recAction r ≠ 1 → Answered l (resultOf r .badRequest) s v)
      ∧ ∀ i : Slot, recUnit r = BitVec.ofNat 8 i.val → recAction r = 1 →
        (s.streams[i].state = .closed ∨ s.streams[i].state = .draining → Answered l (resultOf r .wrongState) s v)
        ∧ (s.streams[i].state = .armed ∨ s.streams[i].state = .running → s.streams[i].owner ≠ some l →
            Answered l (resultOf r .notMember) s v)
        ∧ (s.streams[i].state = .armed → s.streams[i].owner = some l →
            v.streams[i] = closedRecord s.streams[i] ∧ v.selectors[i] = Selector.initial
            ∧ v.scheds[i] = { glide := none, groups := s.scheds[i].groups } ∧ (∀ m, queueOf v m i = [])
            ∧ SameElsewhere i s v ∧ AdmissionInv v
            ∧ (s.streams[i].staged = none → (∀ m, queueOf s m i = []) →
                ∃ u, u = { s with streams := u.streams, selectors := u.selectors, scheds := u.scheds
                                  admission := u.admission }
                  ∧ Answered l (resultOf r .ok) u v))
        ∧ (s.streams[i].state = .running → s.streams[i].owner = some l →
            v.streams[i] = { s.streams[i] with
              state := .draining, staged := none, pendingClose := some { tag := recTag r, link := l, owed := true } }
            ∧ v.selectors[i] = { s.selectors[i] with due := none } ∧ (∀ m, queueOf v m i = [])
            ∧ v.traps.counters[i] = { s.traps.counters[i] with
                framesDiscarded := satAdd s.traps.counters[i].framesDiscarded
                  ((queueOf s .A i).length + (queueOf s .B i).length) }
            ∧ (0 < heldCount s i → v.scheds[i] = s.scheds[i])
            ∧ (∀ g, heldCount s i = 0 → s.scheds[i].glide = some g → v.scheds[i] = { s.scheds[i] with
                groups := s.scheds[i].groups ++ [
                  { kind := .endMark, index := g.index, fn := frameNumber s.streams[i].timing g.index
                    interval := g.interval, template := s.streams[i].shape.template
                    entries := [
                      { kind := .markEnd, index := 0, sched := nowOf s
                        elig := nowOf s - (s.streams[i].shape.leadPk * g.interval : Nat)
                        deadline := nowOf s + (s.streams[i].shape.gracePk * g.interval : Nat)
                        place := 0, len := 0, arrival := .arrived, done := .pending }] }] })
            ∧ SameElsewhere i s v ∧ AdmissionInv v
            ∧ (s.streams[i].staged = none → (∀ m, queueOf s m i = []) →
                ∃ u, u = { s with streams := u.streams, selectors := u.selectors, scheds := u.scheds } ∧ Deferred l u v))

/-- A CLOSE IMMEDIATE, and a CLOSE of either mode of a HOLDING stream (R35, R36, R37, R18). -/
def Obligations.ImmediateCloseEndsTheStream : Prop :=
  ∀ (l : Link) (r : Record) (s : State), Ready s l r [] → recKind r = 3 → AdmissionInv s →
    (recAction r = 2 → ∃ v, exec (.closeImmediate l r) s = .next (finish s v)
      ∧ (32 ≤ (recUnit r).toNat → Answered l (resultOf r .badRequest) s v)
      ∧ ∀ i : Slot, recUnit r = BitVec.ofNat 8 i.val →
        (s.streams[i].state = .closed → Answered l (resultOf r .wrongState) s v)
        ∧ (s.streams[i].state ≠ .closed → s.streams[i].state ≠ .holding → s.streams[i].owner ≠ some l →
            Answered l (resultOf r .notMember) s v)
        ∧ (s.streams[i].state = .armed → s.streams[i].owner = some l →
            v.streams[i] = closedRecord s.streams[i] ∧ v.selectors[i] = Selector.initial
            ∧ v.scheds[i] = { glide := none, groups := s.scheds[i].groups } ∧ (∀ m, queueOf v m i = [])
            ∧ SameElsewhere i s v ∧ AdmissionInv v))
    ∧ ∀ (i : Slot) (c : Instr), recUnit r = BitVec.ofNat 8 i.val →
      (c = .closeImmediate l r ∧ recAction r = 2
          ∧ (s.streams[i].state = .holding
            ∨ (s.streams[i].state = .running ∨ s.streams[i].state = .draining) ∧ s.streams[i].owner = some l)
        ∨ c = .closeGraceful l r ∧ recAction r = 1 ∧ s.streams[i].state = .holding) →
      ∀ g, s.scheds[i].glide = some g →
      ∃ v, exec c s = .next (finish s v)
        ∧ v.streams[i] = closedRecord s.streams[i] ∧ v.selectors[i] = Selector.initial
        ∧ (∀ m, queueOf v m i = [])
        ∧ v.scheds[i] = { glide := none
                          groups := s.scheds[i].groups.filter isClosingEnd ++ [
                            { kind := .closingEnd, index := g.index, fn := frameNumber s.streams[i].timing g.index
                              interval := g.interval, template := s.streams[i].shape.template
                              entries := [
                                { kind := .markEnd, index := 0, sched := nowOf s
                                  elig := nowOf s - (s.streams[i].shape.leadPk * g.interval : Nat)
                                  deadline := nowOf s + (s.streams[i].shape.gracePk * g.interval : Nat)
                                  place := 0, len := 0, arrival := .arrived, done := .pending }] }] }
        ∧ v.traps.counters[i].dropsClosed = satAdd s.traps.counters[i].dropsClosed
            (pendingCount (s.scheds[i].groups.filter fun g => !isClosingEnd g))
        ∧ SameElsewhere i s v ∧ AdmissionInv v
        ∧ (s.streams[i].staged = none → (∀ m, queueOf s m i = []) → s.streams[i].pendingClose = none →
            (∀ g ∈ s.scheds[i].groups, isClosingEnd g = true) →
            ∃ u, u = { s with streams := u.streams, selectors := u.selectors, scheds := u.scheds
                              admission := u.admission }
              ∧ Answered l (resultOf r .ok) u v)

/-- STANDBY JOIN and LEAVE (R38, R39). -/
def Obligations.StandbyJoinsAndLeaves : Prop :=
  ∀ (l : Link) (r : Record) (s : State), Ready s l r [] → recKind r = 5 →
    (recAction r ≠ 2 → ∃ t, exec (.standbyJoin l r) s = .next t
      ∧ (32 ≤ (recUnit r).toNat ∨ recAction r ≠ 1 → Answered l (resultOf r .badRequest) s t)
      ∧ ∀ i : Slot, recUnit r = BitVec.ofNat 8 i.val → recAction r = 1 →
        (s.streams[i].state ≠ .armed ∧ s.streams[i].state ≠ .running ∨ s.streams[i].owner = some l →
          Answered l (resultOf r .wrongState) s t)
        ∧ (s.streams[i].state = .armed ∨ s.streams[i].state = .running → s.streams[i].owner = some (otherLink l) →
            (s.streams[i].standby = some l → Answered l (resultOf r .ok) s t)
            ∧ (s.streams[i].standby = none → OtherHears s l →
                ∃ u, u = { s with streams := u.streams, selectors := u.selectors } ∧ SameElsewhere i s u
                  ∧ u.streams[i] = { s.streams[i] with standby := some l }
                  ∧ u.selectors[i] = { s.selectors[i] with preferred := .owner, miss := 0, present := 0 }
                  ∧ Answered l (resultOf r .ok) (membershipNotice i (otherLink l) u) t)))
    ∧ (recAction r = 2 → ∃ t, exec (.standbyLeave l r) s = .next t
      ∧ (32 ≤ (recUnit r).toNat → Answered l (resultOf r .badRequest) s t)
      ∧ ∀ i : Slot, recUnit r = BitVec.ofNat 8 i.val →
        (s.streams[i].state = .closed ∨ s.streams[i].state = .holding → Answered l (resultOf r .wrongState) s t)
        ∧ (s.streams[i].state ≠ .closed → s.streams[i].state ≠ .holding → s.streams[i].standby ≠ some l →
            Answered l (resultOf r .notMember) s t)
        ∧ (s.streams[i].state ≠ .closed → s.streams[i].state ≠ .holding → s.streams[i].standby = some l →
            t.streams[i] = { s.streams[i] with standby := none }
            ∧ t.selectors[i] = { s.selectors[i] with
                preferred := .owner, miss := 0, present := 0, marks := s.selectors[i].marks.modify l fun _ => false }
            ∧ queueOf t l i = [] ∧ queueOf t (otherLink l) i = queueOf s (otherLink l) i
            ∧ t.scheds = s.scheds ∧ SameElsewhere i s t
            ∧ t.traps.counters[i] = { s.traps.counters[i] with
                framesDiscarded := satAdd s.traps.counters[i].framesDiscarded (queueOf s l i).length }
            ∧ (queueOf s l i = [] → s.streams[i].owner = some (otherLink l) → OtherHears s l →
                ∃ u, u = { s with streams := u.streams, selectors := u.selectors }
                  ∧ Answered l (resultOf r .ok) (membershipNotice i (otherLink l) u) t)))

/-- ADOPT of a RUNNING stream by its standby and of a HOLDING stream by either link (R40, R41, R42). -/
def Obligations.AdoptTakesTheStream : Prop :=
  ∀ (l : Link) (r : Record) (s : State), Ready s l r [] → recKind r = 4 →
    ∃ t, exec (.adopt l r) s = .next t
      ∧ (32 ≤ (recUnit r).toNat → Answered l (resultOf r .badRequest) s t)
      ∧ ∀ i : Slot, recUnit r = BitVec.ofNat 8 i.val →
        (s.streams[i].state = .closed ∨ s.streams[i].state = .armed ∨ s.streams[i].state = .draining →
          Answered l (resultOf r .wrongState) s t)
        ∧ (s.streams[i].state = .running → s.streams[i].owner = some l → Answered l (resultOf r .wrongState) s t)
        ∧ (s.streams[i].state = .running → s.streams[i].owner ≠ some l → s.streams[i].standby ≠ some l →
            Answered l (resultOf r .notMember) s t)
        ∧ ∀ rec, (s.streams[i].state = .running ∧ s.streams[i].owner ≠ some l ∧ s.streams[i].standby = some l
              ∧ rec = { s.streams[i] with owner := some l, standby := some (otherLink l) }
            ∨ s.streams[i].state = .holding
              ∧ rec = { s.streams[i] with state := .running, owner := some l, standby := none, holdCount := 0 }) →
          OtherHears s l →
          ∃ u, u = { s with streams := u.streams, selectors := u.selectors } ∧ SameElsewhere i s u
            ∧ u.streams[i] = rec
            ∧ u.selectors[i] = { s.selectors[i] with preferred := .owner, miss := 0, present := 0 }
            ∧ Answered l (resultOf r .ok)
                (complete (otherLink l) { mkNotice .membership (BitVec.ofNat 8 i.val) with
                  b26 := 2, b27 := linkCode (some l), b28 := linkCode rec.standby, b29 := 1 } u) t

/-! ## Frame queues -/

/-- A SUBMIT in the order of R72 and R73, then the tests of SubmitTestsAreJudgedInOrder, then QUEUED with its result
deferred (R72, R76). -/
def Obligations.SubmitIsQueuedOrRefused : Prop :=
  ∀ (l : Link) (r : Record) (s : State) (len segs ancs : Nat) (fn : BitVec 32) (addr : BitVec 64) (bad : Prop),
    recKind r = 6 → len = (recU32 r 12).toNat → segs = (recByte r 16).toNat → ancs = (recByte r 17).toNat →
    fn = recU32 r 8 → addr = recU64 r 24 →
    (bad ↔ segs < 1 ∨ 16 < segs ∨ 16 < ancs ∨ len = 0 ∨ recInline r = true ∧ (1 < segs ∨ 0 < ancs)) →
    (∀ replies st, AtHand s l r replies →
      ((32 ≤ (recUnit r).toNat ∨ bad) ∧ st = .badRequest
        ∨ ∃ i : Slot, recUnit r = BitVec.ofNat 8 i.val ∧ ¬ bad ∧
          (s.streams[i].state ≠ .armed ∧ s.streams[i].state ≠ .running ∧ st = .wrongState
            ∨ (s.streams[i].state = .armed ∨ s.streams[i].state = .running) ∧
              (s.streams[i].owner ≠ some l ∧ s.streams[i].standby ≠ some l ∧ st = .notMember
                ∨ (s.streams[i].owner = some l ∨ s.streams[i].standby = some l) ∧ recInline r = false
                  ∧ rangeInside (s.links.get l) addr (16 * (segs + ancs)) = false ∧ st = .window))) →
      ∃ t, exec (.submit l r replies) s = .next t ∧ Answered l (resultFnOf r st fn) s t)
    ∧ ∀ (i : Slot) (replies : List Bytes) (ps items : List Piece) (f : FrameRecord), AtHand s l r replies →
      recUnit r = BitVec.ofNat 8 i.val → ¬ bad → (s.streams[i].state = .armed ∨ s.streams[i].state = .running) →
      (s.streams[i].owner = some l ∨ s.streams[i].standby = some l) →
      (recInline r = true ∧ ps = [{ addr := addr, len := len }] ∧ items = []
        ∨ recInline r = false ∧ rangeInside (s.links.get l) addr (16 * (segs + ancs)) = true
          ∧ ∃ bs rest, replies = bs :: rest ∧ 16 * (segs + ancs) ≤ bs.length ∧ ps = parseList segs bs
            ∧ items = parseList ancs (bs.drop (16 * segs))) →
      f = { fn := fn, len := len, segments := ps, ancillary := items, tag := recTag r, link := l, owed := true } →
      ∃ t, exec (.submit l r replies) s = .next t
        ∧ (∀ st, submitRefusal (s.links.get l) s.streams[i] (queueOf s l i) f = some st →
            Answered l (resultFnOf r st fn) s t)
        ∧ (submitRefusal (s.links.get l) s.streams[i] (queueOf s l i) f = none →
            ∃ u, u = { s with queues := u.queues } ∧ queueOf u l i = queueOf s l i ++ [f]
              ∧ (∀ m j, m ≠ l ∨ j ≠ i → queueOf u m j = queueOf s m j) ∧ Deferred l u t)

/-- The tests of R74, R75 and R76 on a frame record, in their order, for an ARMED stream whose first frame number, or a
RUNNING one whose last selected frame number plus one, is next. -/
def Obligations.SubmitTestsAreJudgedInOrder : Prop :=
  ∀ (k : LinkIf) (st : StreamRec) (q : List FrameRecord) (f : FrameRecord) (next : BitVec 32) (b w tl late early ord : Prop),
    (st.state = .armed ∧ next = st.timing.fn0 + BitVec.ofNat 32 st.kFirst
      ∨ st.state = .running ∧ ∃ last, st.lastSel = some last ∧ next = last + 1) →
    (b ↔ (∃ p ∈ f.segments, p.len = 0) ∨ (f.segments.map (·.len)).sum ≠ f.len ∨ ∃ p ∈ f.ancillary, p.len = 0) →
    (w ↔ ∃ p ∈ f.segments ++ f.ancillary, ∀ j : Fin 8, ¬ (k.windows[j].enabled = true
      ∧ k.windows[j].base.toNat ≤ p.addr.toNat ∧ p.addr.toNat + p.len - 1 ≤ k.windows[j].limit.toNat)) →
    (tl ↔ st.shape.n * st.shape.p < f.len ∨ st.shape.aMax < f.ancillary.length ∨ ∃ p ∈ f.ancillary, st.shape.p < p.len) →
    (late ↔ st.state = .armed ∧ (1 ≤ (next - f.fn).toNat ∧ (next - f.fn).toNat ≤ 2 ^ 31 - 1)
      ∨ st.state = .running ∧ ∃ last, st.lastSel = some last ∧ ¬ (1 ≤ (f.fn - last).toNat ∧ (f.fn - last).toNat ≤ 2 ^ 31 - 1)) →
    (early ↔ 64 < (f.fn - next).toNat) →
    (ord ↔ ∃ x, q.getLast? = some x ∧ ¬ (1 ≤ (f.fn - x.fn).toNat ∧ (f.fn - x.fn).toNat ≤ 2 ^ 31 - 1)) →
    (submitRefusal k st q f = some .badRequest ↔ b)
    ∧ (submitRefusal k st q f = some .window ↔ ¬ b ∧ w)
    ∧ (submitRefusal k st q f = some .tooLong ↔ ¬ b ∧ ¬ w ∧ tl)
    ∧ (submitRefusal k st q f = some .tooLate ↔ ¬ b ∧ ¬ w ∧ ¬ tl ∧ late)
    ∧ (submitRefusal k st q f = some .tooEarly ↔ ¬ b ∧ ¬ w ∧ ¬ tl ∧ ¬ late ∧ early)
    ∧ (submitRefusal k st q f = some .order ↔ ¬ b ∧ ¬ w ∧ ¬ tl ∧ ¬ late ∧ ¬ early ∧ ord)
    ∧ (submitRefusal k st q f = some .queueFull ↔ ¬ b ∧ ¬ w ∧ ¬ tl ∧ ¬ late ∧ ¬ early ∧ ¬ ord ∧ 4 ≤ q.length)
    ∧ (submitRefusal k st q f = none ↔ ¬ b ∧ ¬ w ∧ ¬ tl ∧ ¬ late ∧ ¬ early ∧ ¬ ord ∧ q.length < 4)

/-- Serial order (R1), of frame numbers and of feedback sequence numbers, on the numbers themselves. -/
def Obligations.SerialOrderIsModular : Prop :=
  (∀ a b : BitVec 32, newer32 a b = true ↔
     1 ≤ (a.toNat + 2 ^ 32 - b.toNat) % 2 ^ 32 ∧ (a.toNat + 2 ^ 32 - b.toNat) % 2 ^ 32 ≤ 2 ^ 31 - 1)
  ∧ (∀ a b : BitVec 16, newer16 a b = true ↔
     1 ≤ (a.toNat + 2 ^ 16 - b.toNat) % 2 ^ 16 ∧ (a.toNat + 2 ^ 16 - b.toNat) % 2 ^ 16 ≤ 2 ^ 15 - 1)
  ∧ (∀ a b : BitVec 32, ¬ (newer32 a b = true ∧ newer32 b a = true))
  ∧ ∀ a b : BitVec 16, ¬ (newer16 a b = true ∧ newer16 b a = true)

/-- CANCEL ONE and THROUGH (R79): the records found are removed and answered CANCELLED in queue order, then OK. -/
def Obligations.CancelRemovesQueuedRecords : Prop :=
  ∀ (l : Link) (r : Record) (s : State) (c : Instr), Ready s l r [] → recKind r = 7 →
    (c = .cancelOne l r ∧ recScope r ≠ 2 ∨ c = .cancelThrough l r ∧ recScope r = 2) →
    ∃ t, exec c s = .next t
      ∧ (32 ≤ (recUnit r).toNat ∨ recScope r ≠ 1 ∧ recScope r ≠ 2 →
          Answered l (resultFnOf r .badRequest (recU32 r 8)) s t)
      ∧ ∀ (i : Slot) (hit : FrameRecord → Bool), recUnit r = BitVec.ofNat 8 i.val →
        (recScope r = 1 ∧ (∀ f, hit f = true ↔ f.fn = recU32 r 8)
          ∨ recScope r = 2 ∧ ∀ f, hit f = true ↔ f.fn = recU32 r 8
              ∨ 1 ≤ (recU32 r 8 - f.fn).toNat ∧ (recU32 r 8 - f.fn).toNat ≤ 2 ^ 31 - 1) →
        ((queueOf s l i).filter hit = [] → Answered l (resultFnOf r .notFound (recU32 r 8)) s t)
        ∧ ((queueOf s l i).filter hit ≠ [] →
            ∃ u, u = { s with queues := u.queues, traps := { s.traps with counters := u.traps.counters } }
              ∧ SameElsewhere i s u
              ∧ queueOf u l i = (queueOf s l i).filter (fun f => !hit f)
              ∧ queueOf u (otherLink l) i = queueOf s (otherLink l) i
              ∧ u.traps.counters[i] = { s.traps.counters[i] with
                  framesCancelled := satAdd s.traps.counters[i].framesCancelled ((queueOf s l i).filter hit).length }
              ∧ t = fetchNextRequest l (complete l (resultFnOf r .ok (recU32 r 8))
                  (((queueOf s l i).filter hit).foldl (fun s f =>
                    if f.owed then complete f.link { mkResult .cancelled (BitVec.ofNat 8 i.val) f.tag with fn := f.fn } s
                    else s) (advanceHead l u))))

/-! ## Selection and the schedule -/

/-- The selection event of an ARMED or RUNNING stream (R19, R31, R52, R53, R91 to R102): for each member, old are its
queue's stale heads, bad the head that a test of R93 refuses with the status why, kept the rest, and pr says whether the
first of these is its candidate. x, ch and y are the return, the choice and the flip of SelectionTablesAndGlide. A return
or a flip writes its SWITCH notice on both members (R103), an absent frame at the trap's first setting the MISS notice
(R164). The event's outcome and what it retires are counted, and no other counter moves (R99, R167). The results of stale and refused heads come first (R31, R92, R93); the order of two links' completions is log 27. -/
def Obligations.SelectionSendsOrRepeats : Prop :=
  ∀ (i : Slot) (s : State) (st : StreamRec) (sh : Shape) (k v d : Nat) (l : Link) (fn : BitVec 32)
    (old bad kept : Link → List FrameRecord) (why : Link → Option Status) (pr cl : Link → Bool),
    EventAt i s st sh k v d l fn →
    (∀ m ∈ memberLinks st, EventQueue i s sh fn m (old m) (bad m) (kept m) (why m) (pr m)) →
    (∀ m, isMember st m = false → pr m = false) → (∀ m, cl m = (pr m && !s.selectors[i].marks.get m)) →
    k + 1 < 2 ^ 40 → frameStart st.timing (k + 1) + glideTo v d sh.vStar ≤ 2 ^ 63 →
    nowOf s ≤ (frameStart st.timing k + v + sh.gracePk * d : Nat) → heldCount s i < 2 →
    ∀ x ch y, x = steady st.failover.returnAfter (cl l) s.selectors[i] →
      ch = choose (roleLink st x.1.preferred) (roleLink st (otherRole x.1.preferred)) pr cl →
      y = afterChoice st.failover.switchAfter ch x.1 →
      ∀ short : Bool, (short = true ↔
        ∃ m f rest, sentLink ch = some m ∧ kept m = f :: rest ∧ s.staging.free.length < blocksNeeded f) →
      ∃ w, exec (.frameSelectionEvent i) s = .next (finish s w)
        ∧ w.streams[i] = { st with
            state := .running, lastSel := some fn, shape := sh, staged := none
            rate := match st.staged with | some a => a.rate | none => st.rate }
        ∧ w.selectors[i] = { y.1 with
            marks := ⟨false, false⟩
            due := some ((frameStart st.timing (k + 1) + glideTo v d sh.vStar : Nat) - (st.timing.fetchLead : Int)) }
        ∧ w.scheds[i].glide = some { offset := v, interval := d, index := k }
        ∧ (∀ m, isMember st m = true → queueOf w m i = if pr m then (kept m).tail else kept m)
        ∧ (∀ m, isMember st m = false → queueOf w m i = queueOf s m i)
        ∧ w.traps.counters[i] = eventCounters s.traps.counters[i] ((memberLinks st).flatMap old).length
            ((memberLinks st).filter fun m => why m == some .tooLong).length
            ((memberLinks st).filter fun m => why m == some .window).length
            ((memberLinks st).filter fun m => pr m && sentLink ch != some m).length ch x.2 y.2 short
        ∧ (st.staged = none ∨ AdmissionInv s → ∃ rest, w.outputs
            = (handed ((match st.staged with
                | some a => [(a.link, mkResult .applied (BitVec.ofNat 8 i.val) a.tag)]
                | none => [])
              ++ (memberLinks st).flatMap (fun m => (old m).flatMap (owedResult i .stale))
              ++ (memberLinks st).flatMap (fun m => match why m with
                | some e => (bad m).flatMap (owedResult i e)
                | none => [])) s).outputs ++ rest)
        ∧ (y.2 = true → streamTrapSet w i .switch = true)
        ∧ (st.staged = none → (∀ m, isMember st m = true → old m = [] ∧ bad m = [] ∧ Hears s m) →
            (∃ rest, w.outputs = s.outputs ++ (if x.2 = true ∨ y.2 = true then
                (l :: st.standby.toList).flatMap (written s { mkNotice .switch (BitVec.ofNat 8 i.val) with
                  fn := fn, b27 := roleCode y.1.preferred, b28 := linkCode (sentLink ch), b29 := if y.2 then 1 else 2 })
                else []) ++ rest
              ∧ ∀ d ∈ rest, ∀ m a z, d = .completion m a z → z.kind ≠ .notice .switch)
            ∧ (sentLink ch = none → streamTrapSet s i .miss = false →
                w.outputs = s.outputs ++ (l :: st.standby.toList).flatMap
                  (written s { mkNotice .trap (BitVec.ofNat 8 i.val) with tag := 17, fn := fn })))
        ∧ (∀ m f rest, sentLink ch = some m → kept m = f :: rest → blocksNeeded f ≤ s.staging.free.length →
            w.scheds[i].groups = s.scheds[i].groups
              ++ [frameGroup st.timing sh k v f (st.standby == some m) (s.staging.free.take (blocksNeeded f))]
            ∧ w.staging = { s.staging with free := s.staging.free.drop (blocksNeeded f) }
            ∧ w.engines.get m = { s.engines.get m with
                jobs := (s.engines.get m).jobs
                  ++ [{ id := (s.engines.get m).nextJob, work := .frame i k, reads := framePlan f }]
                nextJob := (s.engines.get m).nextJob + 1 }
            ∧ w.engines.get (otherLink m) = s.engines.get (otherLink m))
        ∧ (∀ m f rest, sentLink ch = some m → kept m = f :: rest → s.staging.free.length < blocksNeeded f →
            w.scheds[i].groups = s.scheds[i].groups ++ [repeatGroup st.timing sh k v] ∧ w.staging = s.staging
            ∧ w.engines = s.engines ∧ deviceTrapSet w .poolStarved = true
            ∧ w.traps.devCounters.poolStarvations = satAdd s.traps.devCounters.poolStarvations 1)
        ∧ (sentLink ch = none →
            w.scheds[i].groups = s.scheds[i].groups ++ [repeatGroup st.timing sh k v] ∧ w.staging = s.staging
            ∧ w.engines = s.engines ∧ streamTrapSet w i .miss = true)
        ∧ SameElsewhere i s w ∧ w.clock = s.clock ∧ w.uplink = s.uplink ∧ w.channels = s.channels ∧ w.store = s.store
        ∧ w.port = s.port ∧ (st.staged = none → w.admission = s.admission) ∧ (st.staged ≠ none → AdmissionInv w)

/-- The selection event of an ARMED or RUNNING stream at its limits: with two held frames, of which the older is removed
first (R62, R100); with the frame's first deadline already passed, so that what it places is dropped at once if nothing
stands before it (R65, R132); and at the end of the timetable, where the stream becomes DRAINING (R19, R33). The
completions are handed over in the order of R91 and R98; what R177 leaves open in it is the model's choice (log 27). -/
def Obligations.SelectionAtItsLimits : Prop :=
  ∀ (i : Slot) (s : State) (st : StreamRec) (sh : Shape) (k v d : Nat) (l : Link) (fn : BitVec 32)
    (old bad kept : Link → List FrameRecord) (why : Link → Option Status) (pr cl : Link → Bool)
    (rest : List Group) (free : List Nat) (out : Option Group) (late past again : Bool),
    EventAt i s st sh k v d l fn →
    (∀ m ∈ memberLinks st, EventQueue i s sh fn m (old m) (bad m) (kept m) (why m) (pr m)) →
    (∀ m, isMember st m = false → pr m = false) → (∀ m, cl m = (pr m && !s.selectors[i].marks.get m)) →
    OlderLeaves i s rest free out →
    (past = true ↔ 2 ^ 40 ≤ k + 1 ∨ 2 ^ 63 < frameStart st.timing (k + 1) + glideTo v d sh.vStar) →
    (late = true ↔ (frameStart st.timing k + v + sh.gracePk * d : Nat) < nowOf s ∧ headOf rest = none) →
    (late = true → rest = []) →
    ∀ x ch y, x = steady st.failover.returnAfter (cl l) s.selectors[i] →
      ch = choose (roleLink st x.1.preferred) (roleLink st (otherRole x.1.preferred)) pr cl →
      y = afterChoice st.failover.switchAfter ch x.1 →
    (again = true ↔ sentLink ch = none
      ∨ ∃ m f fs, sentLink ch = some m ∧ kept m = f :: fs ∧ free.length < blocksNeeded f) →
    ∀ counters : StreamCounters,
      counters = eventCounters s.traps.counters[i] ((memberLinks st).flatMap old).length
        ((memberLinks st).filter fun m => why m == some .tooLong).length
        ((memberLinks st).filter fun m => why m == some .window).length
        ((memberLinks st).filter fun m => pr m && sentLink ch != some m).length ch x.2 y.2 again →
    ∀ left : Link → List FrameRecord,
      (∀ m, left m = if isMember st m then if pr m then (kept m).tail else kept m else queueOf s m i) →
      ∃ w, exec (.frameSelectionEvent i) s = .next (finish s w)
        ∧ w.streams[i] = { st with
            state := if past then .draining else .running, lastSel := some fn, shape := sh, staged := none
            pendingClose := if past then none else st.pendingClose
            rate := match st.staged with | some a => a.rate | none => st.rate }
        ∧ w.selectors[i] = { y.1 with
            marks := ⟨false, false⟩
            due := if past then none
              else some ((frameStart st.timing (k + 1) + glideTo v d sh.vStar : Nat) - (st.timing.fetchLead : Int)) }
        ∧ w.scheds[i].glide = some { offset := v, interval := d, index := k }
        ∧ (∀ m, queueOf w m i = if past then [] else left m)
        ∧ w.traps.counters[i].framesDiscarded = satAdd s.traps.counters[i].framesDiscarded
            (if past then (left .A).length + (left .B).length else 0)
        ∧ w.traps.counters[i] = { w.traps.counters[i] with
            framesStale := counters.framesStale, framesTooLong := counters.framesTooLong
            framesWindow := counters.framesWindow, framesShadowed := counters.framesShadowed
            framesStarved := counters.framesStarved, sentPreferred := counters.sentPreferred
            filledIn := counters.filledIn, repeatedAbsent := counters.repeatedAbsent, flips := counters.flips
            returns := counters.returns }
        ∧ w.uplink = tripAfter s (late || dropsAny out)
        ∧ (late = true ∨ dropsAny out = true → s.uplink.tx ≠ .down → streamTrapSet w i .lateDrop = true)
        ∧ (∀ g, out = some g → w.traps.counters[i].dropsLate = satAdd s.traps.counters[i].dropsLate (pendingIn g))
        ∧ (late = true → ∀ g e, slotHead w i = some (g, e) → e.arrival ≠ .never ∧ nowOf s ≤ e.deadline)
        ∧ (∀ m f fs, sentLink ch = some m → kept m = f :: fs → blocksNeeded f ≤ free.length → late = false →
            w.scheds[i].groups = rest
              ++ [frameGroup st.timing sh k v f (st.standby == some m) (free.take (blocksNeeded f))]
            ∧ w.staging = { s.staging with free := free.drop (blocksNeeded f) }
            ∧ (∀ e, e = engineWithout i out m (s.engines.get m) → w.engines.get m = { e with
                jobs := e.jobs ++ [{ id := e.nextJob, work := .frame i k, reads := framePlan f }]
                nextJob := e.nextJob + 1 })
            ∧ w.engines.get (otherLink m) = engineWithout i out (otherLink m) (s.engines.get (otherLink m)))
        ∧ (again = true →
            w.scheds[i].groups = (if late = false then rest ++ [repeatGroup st.timing sh k v] else if past then
              [{ kind := .endMark, index := k, fn := fn, interval := d, template := sh.template
                 entries := [{ kind := .markEnd, index := 0, sched := nowOf s, elig := nowOf s - (sh.leadPk * d : Nat)
                               deadline := nowOf s + (sh.gracePk * d : Nat), place := 0, len := 0, arrival := .arrived
                               done := .pending }] }] else [])
            ∧ w.staging = { s.staging with free := free }
            ∧ (∀ m, w.engines.get m = engineWithout i out m (s.engines.get m))
            ∧ (late = true → w.traps.counters[i].dropsLate
                  = satAdd s.traps.counters[i].dropsLate (if s.uplink.tx = .down then 0 else 1)
                ∧ w.traps.counters[i].dropsDown
                  = satAdd s.traps.counters[i].dropsDown (if s.uplink.tx = .down then 1 else 0)))
        ∧ (st.staged = none ∨ AdmissionInv s →
            ∀ (note : Completion → List (Link × Completion)) (missed starved : List (Link × Completion)),
            note = toMembers st →
            missed = (if sentLink ch = none ∧ streamTrapSet s i .miss = false then
                note { mkNotice .trap (BitVec.ofNat 8 i.val) with tag := 17, fn := fn } else []) →
            (∀ m f fs, sentLink ch = some m → kept m = f :: fs → starved =
              (if free.length < blocksNeeded f then owedResult i .starved f
                ++ (if deviceTrapSet s .poolStarved = true then []
                  else [(.A, { mkNotice .trap 255 with tag := 3 }), (.B, { mkNotice .trap 255 with tag := 3 })])
              else [])) →
            (sentLink ch = none → starved = []) →
            ∃ more, w.outputs = (handed (
                (match st.staged with
                  | some a => [(a.link, mkResult .applied (BitVec.ofNat 8 i.val) a.tag)]
                  | none => [])
                ++ (memberLinks st).flatMap (fun m => (old m).flatMap (owedResult i .stale))
                ++ (memberLinks st).flatMap (fun m => match why m with
                  | some e => (bad m).flatMap (owedResult i e)
                  | none => [])
                ++ (if x.2 = true ∨ y.2 = true then note { mkNotice .switch (BitVec.ofNat 8 i.val) with
                    fn := fn, b27 := roleCode y.1.preferred, b28 := linkCode (sentLink ch), b29 := if y.2 then 1 else 2 }
                  else [])
                ++ (memberLinks st).flatMap (fun m =>
                  if pr m = true ∧ sentLink ch ≠ some m then ((kept m).take 1).flatMap (owedResult i .shadowed) else [])
                ++ removalHands i s (memberLinks st) out ++ missed ++ starved
                ++ (if late = true ∧ s.uplink.tx ≠ .down ∧ streamTrapSet s i .lateDrop = false then
                    note { mkNotice .trap (BitVec.ofNat 8 i.val) with tag := 16, fn := fn } else [])
                ++ (if past = true ∧ (late = false ∨ again = true) then
                    [.A, .B].flatMap (fun m => (left m).flatMap (owedResult i .discarded)) else [])) s).outputs ++ more
              ∧ (late = false ∨ again = true → more = []))
        ∧ SameElsewhere i s w ∧ w.clock = s.clock ∧ w.channels = s.channels ∧ w.store = s.store ∧ w.port = s.port
        ∧ (st.staged = none → w.admission = s.admission) ∧ (st.staged ≠ none → AdmissionInv w)

/-- A selection event where none falls: the slot has no due time, station time has not reached it, or the stream is
DRAINING or CLOSED (R91). The selection event of a HOLDING stream (R46, R19, R37, R91): it removes the older of two held
frames (R62, R100) and repeats its picture, dropped at once if its deadline has passed and nothing stands before it
(R65), or ends the stream: the RESULTs of its held frames, then the MEMBERSHIP notice with state CLOSED on each UP link, are
all that is put out (R19, R46, R67, R82; the order of the RESULTs and the notices, and of the links, is log 27). -/
def Obligations.HoldingRepeatsThenEnds : Prop :=
  (∀ (i : Slot) (s : State),
     (∀ due, s.selectors[i].due = some due → nowOf s < due)
       ∨ s.streams[i].state = .draining ∨ s.streams[i].state = .closed →
     exec (.frameSelectionEvent i) s = .next (finish s s))
  ∧ ∀ (i : Slot) (s : State) (st : StreamRec) (g0 : Glide) (k v d : Nat) (due : Int) (past : Prop),
    st = s.streams[i] → st.state = .holding → s.scheds[i].glide = some g0 → k = g0.index + 1 →
    v = glideTo g0.offset g0.interval st.shape.vStar → d = span st.timing k / st.shape.n →
    (past ↔ 2 ^ 40 ≤ k + 1 ∨ 2 ^ 63 < frameStart st.timing (k + 1) + glideTo v d st.shape.vStar) →
    s.selectors[i].due = some due → due ≤ nowOf s →
    (st.holdCount < st.failover.holdFrames → ¬ past →
      ∀ (rest : List Group) (free : List Nat) (out : Option Group) (late : Bool), OlderLeaves i s rest free out →
        (late = true ↔ (frameStart st.timing k + v + st.shape.gracePk * d : Nat) < nowOf s ∧ headOf rest = none) →
        (late = true → rest = []) →
        ∃ w, exec (.frameSelectionEvent i) s = .next (finish s w)
          ∧ (out = none → late = false →
              w = { s with streams := w.streams, selectors := w.selectors, scheds := w.scheds
                           traps := { s.traps with counters := w.traps.counters } })
          ∧ w = { s with streams := w.streams, selectors := w.selectors, scheds := w.scheds, traps := w.traps
                         uplink := tripAfter s (late || dropsAny out), staging := { s.staging with free := free }
                         engines := w.engines, links := w.links, outputs := w.outputs }
          ∧ (∀ m, w.engines.get m = engineWithout i out m (s.engines.get m))
          ∧ SameElsewhere i s w
          ∧ w.streams[i] = { st with
              holdCount := st.holdCount + 1, lastSel := some (st.timing.fn0 + BitVec.ofNat 32 k) }
          ∧ w.selectors[i] = { s.selectors[i] with
              marks := ⟨false, false⟩
              due := some ((frameStart st.timing (k + 1) + glideTo v d st.shape.vStar : Nat)
                - (st.timing.fetchLead : Int)) }
          ∧ w.scheds[i] = { glide := some { offset := v, interval := d, index := k }
                            groups := if late then [] else rest ++ [repeatGroup st.timing st.shape k v] }
          ∧ w.traps.counters[i].repeatedHolding = satAdd s.traps.counters[i].repeatedHolding 1
          ∧ (out = none → late = false → w.traps.counters[i] = { s.traps.counters[i] with
              repeatedHolding := satAdd s.traps.counters[i].repeatedHolding 1 })
          ∧ (∀ g, out = some g → w.traps.counters[i].dropsLate = satAdd s.traps.counters[i].dropsLate (pendingIn g))
          ∧ (late = true ∨ dropsAny out = true → s.uplink.tx ≠ .down → streamTrapSet w i .lateDrop = true)
          ∧ (st.owner = none → st.standby = none → w.outputs = (handed (removalHands i s [.A, .B] out
              ++ (if late = true ∧ s.uplink.tx ≠ .down ∧ streamTrapSet s i .lateDrop = false then
                  [.A, .B].map fun m => (m, { mkNotice .trap (BitVec.ofNat 8 i.val) with
                    tag := 16, fn := st.timing.fn0 + BitVec.ofNat 32 k })
                else [])) s).outputs))
    ∧ (st.failover.holdFrames ≤ st.holdCount ∨ past →
        ∃ w, exec (.frameSelectionEvent i) s = .next (finish s w)
          ∧ w.streams[i] = closedRecord st ∧ w.selectors[i] = Selector.initial
          ∧ w.scheds[i] = { glide := none
                            groups := s.scheds[i].groups.filter isClosingEnd ++ [
                              { kind := .closingEnd, index := k, fn := st.timing.fn0 + BitVec.ofNat 32 k
                                interval := d, template := st.shape.template
                                entries := [
                                  { kind := .markEnd, index := 0, sched := nowOf s
                                    elig := nowOf s - (st.shape.leadPk * d : Nat)
                                    deadline := nowOf s + (st.shape.gracePk * d : Nat)
                                    place := 0, len := 0, arrival := .arrived, done := .pending }] }] }
          ∧ w.traps.counters[i].dropsClosed = satAdd s.traps.counters[i].dropsClosed
              (pendingCount (s.scheds[i].groups.filter fun g => !isClosingEnd g))
          ∧ SameElsewhere i s w ∧ AdmissionInv w
          ∧ (AdmissionInv s → ∀ note, note = { mkNotice .membership (BitVec.ofNat 8 i.val) with
                b26 := stateCode .closed, b27 := linkCode none, b28 := linkCode none, b29 := roleCode .owner } →
              ∀ t, t = handed ((s.scheds[i].groups.filter fun g => !isClosingEnd g).flatMap (retireHands i)
                  ++ [(.A, note), (.B, note)]) s →
                w.outputs = t.outputs ∧ w.links = t.links ∧ w.traps.device = t.traps.device))

/-- The table of R95 with the flip of R96, the return of R97 and the glide of R52. -/
def Obligations.SelectionTablesAndGlide : Prop :=
  (∀ (ps os : Option Link) (pr cl : Link → Bool), (∀ m, cl m = true → pr m = true) →
    (∀ l, ps = some l → cl l = true → choose ps os pr cl = .preferred l true)
    ∧ (∀ l, os = some l → cl l = true → (∀ m, ps = some m → cl m = false) → choose ps os pr cl = .fillIn l)
    ∧ (∀ l, ps = some l → pr l = true → cl l = false → (∀ m, os = some m → cl m = false) →
        choose ps os pr cl = .preferred l false)
    ∧ (∀ l, os = some l → pr l = true → cl l = false → (∀ m, ps = some m → pr m = false) →
        choose ps os pr cl = .fillIn l)
    ∧ ((∀ m, ps = some m → pr m = false) → (∀ m, os = some m → pr m = false) → choose ps os pr cl = .absent))
  ∧ (∀ (sw : Nat) (l : Link) (c : Selector),
      afterChoice sw (.preferred l true) c = ({ c with miss := 0 }, false)
      ∧ afterChoice sw (.preferred l false) c = ({ c with miss := min 255 (c.miss + 1) }, false)
      ∧ afterChoice sw .absent c = ({ c with miss := min 255 (c.miss + 1) }, false)
      ∧ (sw ≤ min 255 (c.miss + 1) → afterChoice sw (.fillIn l) c
          = ({ c with preferred := otherRole c.preferred, miss := 0, present := 0 }, true))
      ∧ (min 255 (c.miss + 1) < sw → afterChoice sw (.fillIn l) c = ({ c with miss := min 255 (c.miss + 1) }, false)))
  ∧ (∀ (ret : Nat) (clear : Bool) (c : Selector),
      (c.preferred = .owner → steady ret clear c = (c, false))
      ∧ (c.preferred = .standby → ∀ p, p = (if clear then min 255 (c.present + 1) else 0) →
          (ret ≠ 0 → ret ≤ p → steady ret clear c
            = ({ c with preferred := .owner, miss := 0, present := 0 }, true))
          ∧ (ret = 0 ∨ p < ret → steady ret clear c = ({ c with present := p }, false))))
  ∧ ∀ (v last target : Nat),
      ((target : Int) - v ≤ (last / 2 : Nat) → (v : Int) - target ≤ (last / 2 : Nat) → glideTo v last target = target)
      ∧ (v + last / 2 < target → glideTo v last target = v + last / 2)
      ∧ (target + last / 2 < v → glideTo v last target + last / 2 = v)

/-- The FRAME group of a record (R61): its record with n_f, a_f and the standby flag, fn_k, D_k and the template, and one
entry per packet with the times and places of R54 to R58 and R108, in the order of R62. The REPEAT group of a frame with
its one marker (R59, R61). The frame start and lengths they are made from (R48, R49). The group's read plan (R108, R109): no read longer than 4,096 bytes or across a multiple of 4,096 of the layout, and
together, in order, every byte of the items and then of the segments once, each to its place. -/
def Obligations.FrameGroupAndReadPlanAreComplete : Prop :=
  (∀ (t : Timing) (sh : Shape) (k v a nf af d : Nat) (r : FrameRecord) (standby : Bool) (blocks : List Nat) (es : List Entry),
     a = frameStart t k + v → 1 ≤ r.len → 1 ≤ sh.p → nf = (r.len + (sh.p - 1)) / sh.p → af = r.ancillary.length →
     d = span t k / sh.n → (sh.placement = .gap → t.mode ≠ .even) →
     es = (frameGroup t sh k v r standby blocks).entries →
     frameGroup t sh k v r standby blocks = {
       kind := .frame { record := r, fromStandby := standby, nf := nf, af := af, blocks := blocks.map some, got := []
                        failed := false, lateness := 0 }
       index := k, fn := t.fn0 + BitVec.ofNat 32 k, interval := d, template := sh.template, entries := es }
     ∧ (∀ e, e ∈ es ↔
       (∃ n, n < nf ∧ e =
         { kind := .live, index := n, sched := (a + n * span t k / nf : Nat)
           elig := (a + n * span t k / nf : Nat) - (sh.leadPk * d : Nat)
           deadline := (a + n * span t k / nf : Nat) + (sh.gracePk * d : Nat)
           place := (r.ancillary.map (·.len)).sum + n * sh.p, len := min sh.p (r.len - n * sh.p)
           arrival := .waiting, done := .pending })
       ∨ ∃ j, ∃ _h : j < r.ancillary.length, ∃ x : Nat,
         x = (match sh.placement with
           | .lead => a
           | .gap => a + span t k + j * (fullLength t k - span t k) / af)
         ∧ e =
         { kind := .anc, index := j, sched := (x : Int), elig := (x : Int) - (sh.leadPk * d : Nat)
           deadline := (x : Int) + (sh.gracePk * d : Nat)
           place := ((r.ancillary.take j).map (·.len)).sum, len := r.ancillary[j].len
           arrival := .waiting, done := .pending })
     ∧ es.length = nf + af
     ∧ es.Pairwise fun x y => x.sched < y.sched
         ∨ x.sched = y.sched ∧ (x.kind = .live ∧ y.kind = .anc ∨ x.kind = y.kind ∧ x.index < y.index))
  ∧ (∀ (t : Timing) (sh : Shape) (k v a d : Nat), a = frameStart t k + v → d = span t k / sh.n →
       repeatGroup t sh k v = {
         kind := .repeatMark, index := k, fn := t.fn0 + BitVec.ofNat 32 k, interval := d, template := sh.template
         entries := [
           { kind := .markRepeat, index := 0, sched := (a : Int), elig := (a : Int) - (sh.leadPk * d : Nat)
             deadline := (a : Int) + (sh.gracePk * d : Nat), place := 0, len := 0, arrival := .arrived
             done := .pending }] })
  ∧ (∀ (t : Timing) (k : Nat), frameStart t k = t.epoch + k * t.pn * 1000000000 / t.pd
       ∧ fullLength t k = frameStart t (k + 1) - frameStart t k
       ∧ (t.mode = .even → span t k = fullLength t k)
       ∧ ∀ la lt, t.mode = .gapped la lt → span t k = fullLength t k * la / lt)
  ∧ (∀ r : FrameRecord,
       (∀ x ∈ framePlan r, 1 ≤ x.len ∧ x.len ≤ 4096 ∧ x.place / 4096 = (x.place + x.len - 1) / 4096
         ∧ x.state = .unissued ∧ x.attempts = 0)
       ∧ ((framePlan r).flatMap fun x => (List.range x.len).map fun o => (x.addr + BitVec.ofNat 64 o, x.place + o))
         = ((r.ancillary ++ r.segments).flatMap fun p => (List.range p.len).map fun o => p.addr + BitVec.ofNat 64 o).zipIdx)

/-! ## Fetch and staging -/

/-- Issuing a read (R110, R113): the oldest waiting retry, else the next unissued read of the oldest job that has one,
while fewer than 16 attempts are outstanding; inside no window its job fails at once. -/
def Obligations.ReadsAreIssuedInOrderWithinWindows : Prop :=
  ∀ (l : Link) (s : State) (e : FetchEngine), e = s.engines.get l →
    ((s.links.get l).up = false ∨ 16 ≤ e.outstanding.length
        ∨ e.retry = [] ∧ (∀ j ∈ e.jobs, ∀ x ∈ j.reads, x.state ≠ .unissued) →
      exec (.readIssue l) s = .next (finish s s))
    ∧ ((s.links.get l).up = true → e.outstanding.length < 16 →
      ∀ (j : Job) (idx : Nat) (x : Read), j ∈ e.jobs → (∀ y ∈ e.jobs, y.id = j.id → y = j) → j.reads[idx]? = some x →
      ((∃ rest, e.retry = { job := j.id, read := idx } :: rest)
        ∨ e.retry = [] ∧ x.state = .unissued ∧ (∀ n, n < idx → ∀ y, j.reads[n]? = some y → y.state ≠ .unissued)
          ∧ ∃ older newer, e.jobs = older ++ j :: newer ∧ ∀ y ∈ older, ∀ z ∈ y.reads, z.state ≠ .unissued) →
      (rangeInside (s.links.get l) x.addr x.len = true →
        ∃ w, exec (.readIssue l) s = .next (finish s w)
          ∧ w = { s with engines := w.engines, outputs := s.outputs ++ [.dataRead l e.nextAttempt x.addr x.len] }
          ∧ w.engines.get (otherLink l) = s.engines.get (otherLink l)
          ∧ w.engines.get l = { e with
              jobs := e.jobs.map fun y => if y.id = j.id then
                { y with reads := y.reads.modify idx fun z => { z with state := .outstanding, attempts := z.attempts + 1 } }
                else y
              outstanding := e.outstanding
                ++ [{ id := e.nextAttempt, job := j.id, read := idx, expiry := nowOf s + 200000 }]
              retry := e.retry.filter fun z => z != { job := j.id, read := idx }
              nextAttempt := e.nextAttempt + 1 })
      ∧ (rangeInside (s.links.get l) x.addr x.len = false →
        exec (.readIssue l) s = .next (finish s (failJob l j s))))

/-- A completion of every byte asked for (R111, R112): the bytes go to their place in staging and nowhere else, the read
is done, and the entries whose last bytes these are have arrived. One for an attempt no longer current is
discarded. -/
def Obligations.CompletionWritesStagingAndArrives : Prop :=
  ∀ (l : Link) (n : Nat) (data : Bytes) (s : State) (e : FetchEngine), e = s.engines.get l →
    ((∀ a ∈ e.outstanding, a.id ≠ n) → exec (.readCompletion l n data) s = .next (finish s s))
    ∧ ∀ (a : Attempt) (j : Job) (x : Read) (b : Nat), a ∈ e.outstanding → a.id = n →
      (∀ y ∈ e.outstanding, y.id = n → y = a) → j ∈ e.jobs → j.id = a.job → (∀ y ∈ e.jobs, y.id = j.id → y = j) →
      j.reads[a.read]? = some x → x.len ≤ data.length → x.place % 4096 + x.len ≤ 4096 →
      StagingInv s →
      (∀ i k, j.work = .frame i k → ∀ g f, g ∈ s.scheds[i].groups → g.kind = .frame f → g.index = k →
        (∀ y ∈ s.scheds[i].groups, isFrameOf k y = true → y = g) → f.blocks[x.place / 16384]? = some (some b) →
        ∃ w, exec (.readCompletion l n data) s = .next (finish s w) ∧ ReadDone l a j x b data s w
          ∧ w = { s with staging := w.staging, engines := w.engines, scheds := w.scheds }
          ∧ (∀ m : Slot, m ≠ i → w.scheds[m] = s.scheds[m]) ∧ w.scheds[i].glide = s.scheds[i].glide
          ∧ w.scheds[i].groups = s.scheds[i].groups.map fun y => if y = g then
              { g with
                kind := .frame { f with got := f.got ++ [(x.place, x.len)] }
                entries := g.entries.map fun z =>
                  if z.arrival = .waiting ∧ covered (f.got ++ [(x.place, x.len)]) z.place z.len = true then
                    { z with arrival := .arrived }
                  else z }
              else y)
      ∧ ∀ c q, j.work = .bulk c q → ∀ h, h ∈ s.channels[c].blocks → h.number = q → h.pool = b → x.place < 16384 →
        (∀ y ∈ s.channels[c].blocks, y.number = q → y = h) →
        ∃ w, exec (.readCompletion l n data) s = .next (finish s w) ∧ ReadDone l a j x b data s w
          ∧ w = { s with staging := w.staging, engines := w.engines, channels := w.channels }
          ∧ (∀ m : Chan, m ≠ c → w.channels[m] = s.channels[m])
          ∧ w.channels[c] = { s.channels[c] with
              blocks := s.channels[c].blocks.map fun y =>
                if y.number = q then { y with got := y.got ++ [(x.place, x.len)] } else y }

/-- A failed attempt (R113, R114): by its timeout, by an error, or by fewer bytes than asked for. With attempts left its
read waits to be issued again; else its job fails, announced at the first setting of FETCH_FAIL (R94, R112, R133, R164),
or ends its bulk record (R154; the packets-dropped field is a free value, log 41). A frame of which nothing pending has
arrived is gone at once (R82, R133); that its notice stands before its RESULT is log 27. -/
def Obligations.FailedAttemptsAreRetriedOrFailTheJob : Prop :=
  ∀ (l : Link) (n : Nat) (s : State) (e : FetchEngine) (a : Attempt) (j : Job) (x : Read) (c : Instr),
    e = s.engines.get l → a ∈ e.outstanding → a.id = n → (∀ y ∈ e.outstanding, y.id = n → y = a) → j ∈ e.jobs →
    j.id = a.job → (∀ y ∈ e.jobs, y.id = j.id → y = j) → j.reads[a.read]? = some x →
    (c = .readError l n ∨ c = .readTimeout l n ∧ a.expiry ≤ nowOf s
      ∨ ∃ data : Bytes, c = .readCompletion l n data ∧ data.length < x.len) →
    (nowOf s < a.expiry → exec (.readTimeout l n) s = .next (finish s s))
    ∧ (x.attempts < 1 + s.store.active.retries →
      ∃ w, exec c s = .next (finish s w)
        ∧ w = { s with engines := w.engines, traps := { s.traps with
            counters := w.traps.counters, devCounters := w.traps.devCounters } }
        ∧ w.engines.get (otherLink l) = s.engines.get (otherLink l)
        ∧ w.engines.get l = { e with
            jobs := e.jobs.map fun y => if y.id = j.id then
              { y with reads := y.reads.modify a.read fun z => { z with state := .retry } } else y
            outstanding := e.outstanding.filter fun y => y.id != n
            retry := e.retry ++ [{ job := j.id, read := a.read }] }
        ∧ (∀ i k, j.work = .frame i k → w.traps.devCounters = s.traps.devCounters
            ∧ w.traps.counters[i] = { s.traps.counters[i] with
                fetchRetries := satAdd s.traps.counters[i].fetchRetries 1 }
            ∧ ∀ m : Slot, m ≠ i → w.traps.counters[m] = s.traps.counters[m])
        ∧ ∀ b q, j.work = .bulk b q → w.traps.counters = s.traps.counters
            ∧ w.traps.devCounters = { s.traps.devCounters with
                bulkRetries := satAdd s.traps.devCounters.bulkRetries 1 })
    ∧ (1 + s.store.active.retries ≤ x.attempts →
      ∃ w, exec c s = .next (finish s w)
        ∧ (∀ y ∈ (w.engines.get l).jobs, y.id ≠ j.id) ∧ (∀ y ∈ (w.engines.get l).outstanding, y.job ≠ j.id ∧ y.id ≠ n)
        ∧ (∀ y ∈ (w.engines.get l).retry, y.job ≠ j.id)
        ∧ (∀ i k, j.work = .frame i k → ∀ g f, g ∈ s.scheds[i].groups → g.kind = .frame f → g.index = k →
            streamTrapSet w i .fetchFail = true
            ∧ (∀ q ∈ w.scheds[i].groups, isFrameOf k q = true →
                (∃ y, q.kind = .frame y ∧ y.failed = true) ∧ ∀ z ∈ q.entries, z.arrival ≠ .waiting)
            ∧ (∀ h z, slotHead w i = some (h, z) → z.arrival ≠ .never)
            ∧ (isMember s.streams[i] l = true →
                s.streams[i].state = .armed ∨ s.streams[i].state = .running ∨ s.streams[i].state = .holding →
                (∀ q ∈ s.scheds[i].groups, q.kind ≠ .endMark) → w.selectors[i].marks.get l = true)
            ∧ (∀ z h, slotHead s i = some (h, z) → z.arrival = .arrived →
                w.scheds[i].groups = s.scheds[i].groups.map (fun q => if isFrameOf k q then failGroup q else q)
                ∧ (isMember s.streams[i] l = true →
                    s.streams[i].state = .armed ∨ s.streams[i].state = .running ∨ s.streams[i].state = .holding →
                    w.selectors[i].marks.get l = true)
                ∧ ((∀ y ∈ s.scheds[i].groups, isFrameOf k y = true → y = g) → streamTrapSet s i .fetchFail = false →
                    ∀ ls, NoticeLinks s.streams[i] ls → (∀ m ∈ ls, Hears s m) →
                    w.outputs = s.outputs ++ ls.flatMap
                      (written s { mkNotice .trap (BitVec.ofNat 8 i.val) with tag := 19, fn := g.fn })))
            ∧ (s.scheds[i].groups = [g] → 0 < pendingIn g → s.streams[i].state ≠ .draining →
                (∀ z ∈ g.entries, z.done = .pending → z.arrival ≠ .arrived) →
                w.scheds[i].groups = [] ∧ w.uplink = s.uplink
                ∧ w.traps.counters[i].dropsFetch = satAdd s.traps.counters[i].dropsFetch (pendingIn g)
                ∧ w.traps.counters[i].framesFetchFailed = satAdd s.traps.counters[i].framesFetchFailed 1
                ∧ ∀ ls, NoticeLinks s.streams[i] ls → w.outputs = (handed (
                    (if streamTrapSet s i .fetchFail = true then []
                      else ls.map fun m => (m, { mkNotice .trap (BitVec.ofNat 8 i.val) with tag := 19, fn := g.fn }))
                    ++ (if f.record.owed then
                        [(f.record.link, { mkResult .fetchFailed (BitVec.ofNat 8 i.val) f.record.tag with
                          fn := f.record.fn, sent := BitVec.ofNat 32 (sentIn g)
                          dropped := BitVec.ofNat 32 (g.entries.length - sentIn g), lateness := sat32 f.lateness })]
                      else [])) s).outputs))
        ∧ ∀ b q r rest, j.work = .bulk b q → s.channels[b].queue = r :: rest →
            w.channels[b].queue = rest ∧ w.channels[b].blocks = []
            ∧ (0 < r.sent → w.channels[b].abandon = some
                { tag := r.tag, index := r.sent, count := packetCount s.channels[b] r })
            ∧ w.traps.devCounters.bulkFailures = satAdd s.traps.devCounters.bulkFailures 1
            ∧ (r.owed = true → Hears s r.link → ∃ dropped, w.outputs = s.outputs
                ++ written s { mkResult .aborted (BitVec.ofNat 8 b.val) r.tag with
                    sent := BitVec.ofNat 32 r.sent, dropped := dropped } r.link)
            ∧ (r.owed = false → w.outputs = s.outputs))

/-- A bulk channel's ask for its next block (R120, R149, R150). What a channel offers (R149, R150, R151): nothing while it
is unconfigured or held; its abandon marker; else the next packet of its active record, once every byte of it stands in the
block that holds it. -/
def Obligations.BulkChannelsAskForBlocksAndOffer : Prop :=
  (∀ (c : Chan) (s : State) (cfg : ChannelConfig) (r : BulkRecord) (rest : List BulkRecord) (pool : Nat) (free : List Nat),
     s.channels[c].config = some cfg → s.channels[c].queue = r :: rest → s.staging.free = pool :: free → 1 ≤ cfg.pb →
     cfg.pb ≤ 16384 →
     ∀ q packets blocks, q = 16384 / cfg.pb → packets = (r.total + (cfg.pb - 1)) / cfg.pb →
       blocks = (packets + (q - 1)) / q →
       (¬ (r.granted < blocks ∧ s.channels[c].blocks.length < 8 ∧ 512 < s.staging.free.length
           ∧ ((s.engines.get r.link).jobs.filter isBulkJob).length < 8) → exec (.bulkBlockAsk c) s = .next s)
       ∧ (r.granted < blocks → s.channels[c].blocks.length < 8 → 512 < s.staging.free.length →
           ((s.engines.get r.link).jobs.filter isBulkJob).length < 8 →
           ∃ t, exec (.bulkBlockAsk c) s = .next t
             ∧ t = { s with channels := t.channels, staging := { s.staging with free := free }, engines := t.engines }
             ∧ (∀ d : Chan, d ≠ c → t.channels[d] = s.channels[d])
             ∧ t.channels[c] = { s.channels[c] with
                 queue := { r with granted := r.granted + 1 } :: rest
                 blocks := s.channels[c].blocks ++ [{ number := r.granted, pool := pool, got := [] }] }
             ∧ t.engines.get (otherLink r.link) = s.engines.get (otherLink r.link)
             ∧ t.engines.get r.link = { s.engines.get r.link with
                 jobs := (s.engines.get r.link).jobs ++ [
                   { id := (s.engines.get r.link).nextJob, work := .bulk c r.granted
                     reads := blockPlan cfg.pb r r.granted }]
                 nextJob := (s.engines.get r.link).nextJob + 1 }))
  ∧ (∀ (ch : Channel) (o : Offer), offerOf ch = some o ↔
       ∃ cfg, ch.config = some cfg ∧ ch.hold = .released ∧
         ((∃ a, ch.abandon = some a ∧ o = { marker := true, tag := a.tag, index := a.index, count := a.count, payload := 0
                                            wire := cfg.template.bytes.length + 20 + 0 + 24 })
           ∨ ch.abandon = none ∧ ∃ r rest b n, ch.queue = r :: rest
               ∧ n = min cfg.pb (r.total - r.sent * cfg.pb)
               ∧ ch.blocks.find? (fun x => x.number == r.sent / (16384 / cfg.pb)) = some b
               ∧ (∀ x, x < n → ∃ y ∈ b.got, y.1 ≤ r.sent % (16384 / cfg.pb) * cfg.pb + x
                   ∧ r.sent % (16384 / cfg.pb) * cfg.pb + x < y.1 + y.2)
               ∧ o = { marker := false, tag := r.tag, index := r.sent, count := (r.total + (cfg.pb - 1)) / cfg.pb
                       payload := n, wire := cfg.template.bytes.length + 20 + n + 24 }))

/-! ## Uplink arbitration -/

/-- The head of a slot (R63), when it is eligible (R64), and the choice among the eligible heads (R128). The
moments of R124 between the states before and after a command: then a transmit opportunity falls, and at no other moment
(log 34); none falls while the transmitter is SENDING or DOWN. -/
def Obligations.EarliestDeadlineFirst : Prop :=
  (∀ s : State,
     (∀ i g e, slotHead s i = some (g, e) ↔ ∃ gs hs es fs, s.scheds[i].groups = gs ++ g :: hs ∧ g.entries = es ++ e :: fs
       ∧ e.done = .pending ∧ (∀ x ∈ gs, ∀ y ∈ x.entries, y.done ≠ .pending) ∧ ∀ y ∈ es, y.done ≠ .pending)
     ∧ (∀ i h, eligibleHead s i = some h ↔ ∃ g e, slotHead s i = some (g, e) ∧ e.elig ≤ nowOf s ∧ nowOf s ≤ e.deadline
         ∧ e.arrival = .arrived ∧ h = { slot := i, index := g.index, closing := g.kind == .closingEnd, entry := e })
     ∧ (∀ h, bestHead s = some h ↔ eligibleHead s h.slot = some h ∧ ∀ i k, eligibleHead s i = some k →
         h.entry.deadline < k.entry.deadline ∨ h.entry.deadline = k.entry.deadline ∧ h.slot ≤ i)
     ∧ (bestHead s = none ↔ ∀ i, eligibleHead s i = none))
  ∧ (∀ s t : State,
       (t.uplink.tx ≠ .idle → finish s t = t)
       ∧ ((∃ i h, eligibleHead t i = some h ∧ eligibleHead s i ≠ some h)
           ∨ (∃ w, t.uplink.wait = some w ∧ eligibleHead t w.head.slot ≠ some w.head)
           ∨ (∃ c o, offerOf t.channels[(c : Chan)] = some o ∧ offerOf s.channels[c] ≠ some o)
           ∨ (∃ e, s.uplink.trip = some e ∧ t.uplink.trip = none)
           ∨ t.store.active.rate ≠ s.store.active.rate ∨ t.store.active.burst ≠ s.store.active.burst →
           finish s t = opportunity t)
       ∧ ((∀ i h, eligibleHead t i = some h → eligibleHead s i = some h)
           → (∀ w, t.uplink.wait = some w → eligibleHead t w.head.slot = some w.head)
           → (∀ c o, offerOf t.channels[(c : Chan)] = some o → offerOf s.channels[c] = some o)
           → (∀ e, s.uplink.trip = some e → t.uplink.trip ≠ none)
           → t.store.active.rate = s.store.active.rate → t.store.active.burst = s.store.active.burst →
           finish s t = t))

/-- A transmit opportunity with an eligible head (R126, R128, R129, R136, R137, R140, R141). The start marks the head's entry
sent and keeps its group's greatest lateness, the next pending entry becomes the head (R63, R66, R136), and a group whose
last pending entry has started leaves the list (R66, R82). That the last flag follows list order is log 42. -/
def Obligations.OpportunityStartsOrAwaitsTheHead : Prop :=
  ∀ (c : Instr) (s u : State) (h : HeadKey) (g : Group) (e : Entry) (wire cost : Nat),
    OpportunityAt c s u → u.store.ready = true → bestHead u = some h → slotHead u h.slot = some (g, e) →
    wire = g.template.bytes.length + 20 + e.len + 24 → cost = wire * 8 * 1000000 →
    (u.uplink.credit < cost →
      exec c s = .next { u with uplink := { u.uplink with wait := some { head := h, cost := cost }, bulkWait := none } })
    ∧ (cost ≤ u.uplink.credit → ∃ w p rest, exec c s = .next w
        ∧ w.uplink = { u.uplink with
            tx := .sending, credit := u.uplink.credit - cost, wait := none, bulkWait := none
            wire := some { packet := p, wireLen := wire
                           occupies := (wire * 8 + (u.uplink.portRate - 1)) / u.uplink.portRate }
            slotSeq := u.uplink.slotSeq.set h.slot (u.uplink.slotSeq[h.slot] + 1), trip := w.uplink.trip }
        ∧ w.outputs = u.outputs ++ .packet p :: rest ∧ (∀ q, Output.packet q ∉ rest)
        ∧ p.header = patchedHeader g.template e.len
        ∧ p.shim.seq = u.uplink.slotSeq[h.slot] ∧ p.shim.unit = BitVec.ofNat 8 h.slot.val
        ∧ p.shim.frame = g.fn ∧ p.shim.stamp = BitVec.ofInt 32 e.sched ∧ p.shim.len = BitVec.ofNat 16 e.len
        ∧ p.shim.index = BitVec.ofNat 16 e.index ∧ p.shim.abandon = false
        ∧ (p.shim.first = true ↔ ∃ x rest, g.entries = x :: rest ∧ x.kind = e.kind ∧ x.index = e.index)
        ∧ (p.shim.last = true ↔ ∃ x rest, g.entries = rest ++ [x] ∧ x.kind = e.kind ∧ x.index = e.index)
        ∧ (∀ f, g.kind = .frame f → p.shim.fromStandby = f.fromStandby
            ∧ (e.kind = .live → p.shim.kind = .live ∧ p.shim.code = 0 ∧ p.shim.count = BitVec.ofNat 16 f.nf)
            ∧ (e.kind = .anc → p.shim.kind = .anc ∧ p.shim.code = 0 ∧ p.shim.count = BitVec.ofNat 16 f.af)
            ∧ p.payload.length = e.len
            ∧ ∀ o b, o < e.len → f.blocks[(e.place + o) / 16384]? = some (some b) →
                p.payload[o]? = some (Memory.read u.staging.mem (b * 16384 + (e.place + o) % 16384)))
        ∧ ((∀ f, g.kind ≠ .frame f) → p.payload = [] ∧ p.shim.fromStandby = false ∧ p.shim.count = 0
            ∧ (e.kind = .markRepeat → p.shim.kind = .mark ∧ p.shim.code = 1)
            ∧ (e.kind = .markEnd → p.shim.kind = .mark ∧ p.shim.code = 2))
        ∧ (g.kind = .closingEnd →
            w.traps.devCounters.closingSent = satAdd u.traps.devCounters.closingSent 1
            ∧ w.traps.counters[h.slot].liveSent = u.traps.counters[h.slot].liveSent
            ∧ w.traps.counters[h.slot].markersSent = u.traps.counters[h.slot].markersSent)
        ∧ (g.kind ≠ .closingEnd →
            w.traps.devCounters.closingSent = u.traps.devCounters.closingSent
            ∧ w.traps.counters[h.slot].liveSent
              = u.traps.counters[h.slot].liveSent + (if e.kind = .live ∨ e.kind = .anc then 1 else 0)
            ∧ w.traps.counters[h.slot].markersSent
              = u.traps.counters[h.slot].markersSent + (if e.kind = .live ∨ e.kind = .anc then 0 else 1))
        ∧ SameElsewhere h.slot u w ∧ w.clock = u.clock ∧ w.channels = u.channels ∧ w.store = u.store ∧ w.port = u.port
        ∧ w.queues = u.queues ∧ w.staging.mem = u.staging.mem ∧ w.pending = u.pending
        ∧ ∀ (gs : List Group) (before : List Entry) (late : Nat), late = (nowOf u - e.sched).toNat →
            u.scheds[h.slot].groups = g :: gs → (∀ x ∈ before, x.done ≠ .pending) →
            (∀ x ∈ gs, ∃ y ∈ x.entries, y.done = .pending) →
            (∀ y fs f, g.entries = before ++ e :: y :: fs → y.done = .pending → y.arrival ≠ .never →
              nowOf u ≤ y.deadline → g.kind = .frame f →
              w.scheds[h.slot] = { u.scheds[h.slot] with
                  groups := { g with
                    kind := .frame { f with
                      blocks := keepBusy f.blocks (before ++ { e with done := .sent } :: y :: fs)
                      lateness := max f.lateness late }
                    entries := before ++ { e with done := .sent } :: y :: fs } :: gs.map releasedGroup }
                ∧ (slotHead w h.slot).map (·.2) = some y ∧ w.outputs = u.outputs ++ [.packet p])
            ∧ (g.entries = before ++ [e] → g.kind ≠ .endMark → u.streams[h.slot].state ≠ .draining →
              (∀ x y, headOf gs = some (x, y) → y.arrival ≠ .never ∧ nowOf u ≤ y.deadline) →
              w.scheds[h.slot] = { u.scheds[h.slot] with groups := gs.map releasedGroup }
                ∧ (∀ f, g.kind = .frame f → w.traps.counters[h.slot].lateness
                    = satMax u.traps.counters[h.slot].lateness (max f.lateness late))
                ∧ w.outputs = (handed (match g.kind with
                    | .frame f => retireHands h.slot { g with
                        kind := .frame { f with lateness := max f.lateness late }
                        entries := before ++ [{ e with done := .sent }] }
                    | _ => []) { u with outputs := u.outputs ++ [.packet p] }).outputs))

/-- A transmit opportunity with no eligible head: bulk in round-robin order, or the bulk credit wait (R130, R131,
R136, R140, R141, R151). -/
def Obligations.OpportunityServesBulkInTurn : Prop :=
  ∀ (c : Instr) (s u : State), OpportunityAt c s u → u.store.ready = true → bestHead u = none →
    ∀ cost : Offer → Nat, (∀ o, cost o = o.wire * 8 * 1000000) →
    (u.uplink.trip ≠ none → exec c s = .next { u with uplink := { u.uplink with wait := none, bulkWait := none } })
    ∧ (u.uplink.trip = none →
        (∀ d o, offerOf u.channels[(d : Chan)] = some o → u.uplink.credit < cost o) →
        ∃ m, exec c s = .next { u with uplink := { u.uplink with wait := none, bulkWait := m } }
          ∧ (m = none ↔ ∀ d : Chan, offerOf u.channels[d] = none)
          ∧ ∀ n, m = some n → (∃ d o, offerOf u.channels[(d : Chan)] = some o ∧ cost o = n)
              ∧ ∀ d o, offerOf u.channels[(d : Chan)] = some o → n ≤ cost o)
    ∧ (u.uplink.trip = none → ∀ (d : Chan) (n : Nat) (o : Offer) (cfg : ChannelConfig), n < 4 →
        d.val = (u.uplink.rr.val + 1 + n) % 4 → offerOf u.channels[d] = some o → cost o ≤ u.uplink.credit →
        (∀ m, m < n → ∀ x : Chan, x.val = (u.uplink.rr.val + 1 + m) % 4 → ∀ y, offerOf u.channels[x] = some y →
          u.uplink.credit < cost y) →
        u.channels[d].config = some cfg →
        ∃ w p rest, exec c s = .next w
          ∧ w.uplink = { u.uplink with
              tx := .sending, credit := u.uplink.credit - cost o, wait := none, bulkWait := none, rr := d
              wire := some { packet := p, wireLen := o.wire
                             occupies := (o.wire * 8 + (u.uplink.portRate - 1)) / u.uplink.portRate }
              chanSeq := u.uplink.chanSeq.set d (u.uplink.chanSeq[d] + 1) }
          ∧ w.outputs = u.outputs ++ .packet p :: rest
          ∧ p.header = patchedHeader cfg.template o.payload
          ∧ p.shim = { kind := .bulk, first := !o.marker && o.index == 0
                       last := !o.marker && o.index + 1 == o.count, fromStandby := false, abandon := o.marker
                       unit := BitVec.ofNat 8 d.val, code := 0, seq := u.uplink.chanSeq[d]
                       index := BitVec.ofNat 16 o.index, count := BitVec.ofNat 16 o.count, frame := o.tag
                       stamp := u.clock.time.setWidth 32, len := BitVec.ofNat 16 o.payload }
          ∧ w.traps.devCounters = { u.traps.devCounters with bulkSent := u.traps.devCounters.bulkSent + 1 }
          ∧ (∀ x : Chan, x ≠ d → w.channels[x] = u.channels[x])
          ∧ (o.marker = true → p.payload = [] ∧ rest = []
              ∧ w.channels[d] = { u.channels[d] with abandon := none } ∧ w.staging = u.staging)
          ∧ (o.marker = false → ∀ r rs q, u.channels[d].queue = r :: rs → q = 16384 / cfg.pb →
              w.channels[d] = { u.channels[d] with
                queue := if r.sent + 1 = o.count then rs else { r with sent := r.sent + 1 } :: rs
                blocks := u.channels[d].blocks.filter fun b => decide (r.sent + 1 < min ((b.number + 1) * q) o.count) }
              ∧ w.staging = { u.staging with
                  free := u.staging.free ++ (u.channels[d].blocks.filter fun b =>
                    decide (min ((b.number + 1) * q) o.count ≤ r.sent + 1)).map (·.pool) }
              ∧ p.payload.length = o.payload
              ∧ (∀ b x, u.channels[d].blocks.find? (fun y => y.number == r.sent / q) = some b → x < o.payload →
                  r.sent % q * cfg.pb + x < 16384 →
                  p.payload[x]? = some (Memory.read u.staging.mem (b.pool * 16384 + (r.sent % q * cfg.pb + x))))
              ∧ (r.sent + 1 = o.count → r.owed = true → HasRoom u r.link →
                  ∃ z, rest = .completion r.link (tailEntry (u.links.get r.link))
                    { mkResult .sent (BitVec.ofNat 8 d.val) r.tag with
                      sent := BitVec.ofNat 32 o.count, reqHead := BitVec.ofNat 16 (u.links.get r.link).reqHead } :: z)
              ∧ (r.sent + 1 ≠ o.count → rest = [])))

/-- A head whose deadline station time has passed is dropped, LATE or DOWN, and so is each head behind it that will not
arrive or is past its own deadline (R65, R132, R133, R134, R135, R163); the first LATE_DROP is announced (R164). -/
def Obligations.ExpiredHeadsAreDropped : Prop :=
  ∀ (i : Slot) (s : State),
    ((∀ g e, slotHead s i = some (g, e) → nowOf s ≤ e.deadline) → exec (.deadlineExpiry i) s = .next (finish s s))
    ∧ ∀ g e, slotHead s i = some (g, e) → e.deadline < nowOf s →
      ∃ w, exec (.deadlineExpiry i) s = .next (finish s w)
        ∧ (∀ h x, slotHead w i = some (h, x) → x.arrival ≠ .never ∧ nowOf s ≤ x.deadline)
        ∧ (s.uplink.tx = .down → w.uplink = s.uplink
            ∧ streamTrapSet w i .lateDrop = streamTrapSet s i .lateDrop)
        ∧ (s.uplink.tx ≠ .down →
            w.uplink = { s.uplink with
              trip := if s.store.active.tripTime = 0 then s.uplink.trip
                else some (nowOf s + s.store.active.tripTime * 1000000) }
            ∧ (g.kind ≠ .closingEnd → streamTrapSet w i .lateDrop = true))
        ∧ SameElsewhere i s w ∧ w.clock = s.clock ∧ w.channels = s.channels ∧ w.store = s.store ∧ w.port = s.port
        ∧ w.queues = s.queues ∧ w.staging.mem = s.staging.mem
        ∧ ∀ es y fs gs f, s.scheds[i].groups = g :: gs → g.kind = .frame f → g.entries = es ++ e :: y :: fs →
            (∀ x ∈ es, x.done ≠ .pending) → y.done = .pending → y.arrival ≠ .never → nowOf s ≤ y.deadline →
            (∀ h ∈ gs, ∃ x ∈ h.entries, x.done = .pending) →
            ∃ h z, w.scheds[i].groups = h :: (gs.map releasedGroup)
              ∧ h = { g with kind := h.kind, entries := es ++ { e with done := .dropped z } :: y :: fs }
              ∧ (s.uplink.tx = .down → z = .down ∧ w.traps.counters[i] = { s.traps.counters[i] with
                  dropsDown := satAdd s.traps.counters[i].dropsDown 1 })
              ∧ (s.uplink.tx ≠ .down → z = .late
                  ∧ w.traps.counters[i] = { s.traps.counters[i] with
                      dropsLate := satAdd s.traps.counters[i].dropsLate 1 }
                  ∧ (streamTrapSet s i .lateDrop = false → ∀ ls, NoticeLinks s.streams[i] ls → (∀ m ∈ ls, Hears s m) →
                      w.outputs = s.outputs ++ ls.flatMap
                        (written s { mkNotice .trap (BitVec.ofNat 8 i.val) with tag := 16, fn := g.fn })))

/-- Staging blocks of a held frame go back as the last packet with bytes in them is done, and reads into them are abandoned
(R115, R119). A group whose entries are all done leaves its list (R66): a FRAME group retires its record (R82, R83, R115,
R119, R167), the last frame of a DRAINING stream brings its END marker (R34), and a done END marker closes the slot and
answers the CLOSE (R34). -/
def Obligations.DoneEntriesFreeBlocksAndGroupsLeave : Prop :=
  (∀ (i : Slot) (s : State) (g : Group) (f : FrameInfo), s.scheds[i].groups = [g] → g.kind = .frame f →
     ∀ busy : Nat → Prop, (∀ b, busy b ↔ ∃ e ∈ g.entries, e.done = .pending ∧ (e.kind = .live ∨ e.kind = .anc)
       ∧ e.place / 16384 ≤ b ∧ b ≤ (e.place + e.len - 1) / 16384) →
     ∃ blocks given, (releaseBlocks i s).scheds[i].groups = [{ g with kind := .frame { f with blocks := blocks } }]
       ∧ blocks.length = f.blocks.length
       ∧ (∀ b, busy b → blocks[b]? = f.blocks[b]?) ∧ (∀ b, ¬ busy b → b < f.blocks.length → blocks[b]? = some none)
       ∧ (releaseBlocks i s).staging = { s.staging with free := s.staging.free ++ given }
       ∧ (∀ p, given.count p + (blocks.filterMap id).count p = (f.blocks.filterMap id).count p)
       ∧ (∀ j ∈ ((releaseBlocks i s).engines.get f.record.link).jobs, j.work = .frame i g.index →
           ∀ r ∈ j.reads, ∀ p, f.blocks[r.place / 16384]? = some (some p) → ¬ busy (r.place / 16384) →
             (∀ x ∈ (s.engines.get f.record.link).jobs, ∀ y ∈ (s.engines.get f.record.link).jobs,
               x.work = .frame i g.index → y.work = .frame i g.index → x = y) →
             r.state = .done ∨ r.state = .abandoned))
  ∧ (∀ (i : Slot) (s : State) (g : Group) (gs : List Group), s.scheds[i].groups = g :: gs →
       (∀ e ∈ g.entries, e.done ≠ .pending) →
       (∀ f n, g.kind = .frame f → n = (g.entries.filter fun e => e.done == .sent).length →
         f.record.owed = true → HasRoom s f.record.link →
         ∀ st, (st = .fetchFailed ∧ f.failed = true
             ∨ st = .sent ∧ f.failed = false ∧ (∀ e ∈ g.entries, e.done = .sent)
             ∨ st = .partialSent ∧ f.failed = false ∧ ∃ e ∈ g.entries, e.done ≠ .sent) →
           (leaveDone i s).outputs = s.outputs ++ .completion f.record.link (tailEntry (s.links.get f.record.link))
               { mkResult st (BitVec.ofNat 8 i.val) f.record.tag with
                 fn := f.record.fn, sent := BitVec.ofNat 32 n, dropped := BitVec.ofNat 32 (g.entries.length - n)
                 lateness := if f.lateness < 2 ^ 32 then BitVec.ofNat 32 f.lateness else BitVec.allOnes 32
                 reqHead := BitVec.ofNat 16 (s.links.get f.record.link).reqHead }
             :: (if (s.links.get f.record.link).irq = .armed then [.interrupt f.record.link] else [])
           ∧ (leaveDone i s).staging = { s.staging with free := s.staging.free ++ f.blocks.filterMap id }
           ∧ (∀ j ∈ (s.engines.get f.record.link).jobs, j.work = .frame i g.index →
               (∀ k ∈ (s.engines.get f.record.link).jobs, k.work = j.work → k = j) →
               ∀ k ∈ ((leaveDone i s).engines.get f.record.link).jobs, k.id ≠ j.id)
           ∧ (leaveDone i s).traps.counters[i] = { s.traps.counters[i] with
               lateness := satMax s.traps.counters[i].lateness f.lateness
               framesFetchFailed := satAdd s.traps.counters[i].framesFetchFailed (if st = .fetchFailed then 1 else 0)
               framesSent := satAdd s.traps.counters[i].framesSent (if st = .sent then 1 else 0)
               framesPartial := satAdd s.traps.counters[i].framesPartial (if st = .partialSent then 1 else 0) }
           ∧ (s.streams[i].state ≠ .draining → (leaveDone i s).scheds[i].groups = gs))
       ∧ (((∃ f, g.kind = .frame f) ∨ g.kind = .repeatMark) → s.streams[i].state = .draining →
           (∀ x ∈ gs, x.kind = .endMark ∨ x.kind = .closingEnd) → ∀ v, s.scheds[i].glide = some v →
           (leaveDone i s).scheds[i].groups = gs ++ [
             { kind := .endMark, index := v.index, fn := frameNumber s.streams[i].timing v.index, interval := v.interval
               template := s.streams[i].shape.template
               entries := [
                 { kind := .markEnd, index := 0, sched := nowOf s
                   elig := nowOf s - (s.streams[i].shape.leadPk * v.interval : Nat)
                   deadline := nowOf s + (s.streams[i].shape.gracePk * v.interval : Nat)
                   place := 0, len := 0, arrival := .arrived, done := .pending }] }])
       ∧ (g.kind = .repeatMark → s.streams[i].state ≠ .draining →
           leaveDone i s = { s with scheds := s.scheds.set i { s.scheds[i] with groups := gs } })
       ∧ (g.kind = .closingEnd → leaveDone i s = { s with scheds := s.scheds.set i { s.scheds[i] with groups := gs } })
       ∧ (g.kind = .endMark → AdmissionInv s →
           (leaveDone i s).streams[i] = closedRecord s.streams[i] ∧ (leaveDone i s).selectors[i] = Selector.initial
           ∧ (leaveDone i s).scheds[i] = { glide := none, groups := gs } ∧ AdmissionInv (leaveDone i s)
           ∧ ∀ p, s.streams[i].pendingClose = some p → p.owed = true → HasRoom s p.link →
               (leaveDone i s).outputs = s.outputs ++ .completion p.link (tailEntry (s.links.get p.link))
                 { mkResult .ok (BitVec.ofNat 8 i.val) p.tag with
                   reqHead := BitVec.ofNat 16 (s.links.get p.link).reqHead }
                 :: (if (s.links.get p.link).irq = .armed then [.interrupt p.link] else [])))

/-- The uplink is lost (R142); the bulk trip and a hold end at their expiry (R135, R158, log 23); events of the uplink and
of time that find nothing to act on change nothing (log 9). -/
def Obligations.TimersExpireAndUplinkIsLost : Prop :=
  (∀ s : State,
     (s.uplink.tx = .down → exec .uplinkLoss s = .next s)
     ∧ (s.uplink.tx ≠ .down → ∃ t, exec .uplinkLoss s = .next t
         ∧ t = { s with uplink := t.uplink, traps := { s.traps with device := t.traps.device }, links := t.links
                        outputs := t.outputs }
         ∧ t.uplink = { s.uplink with tx := .down, wire := none, wait := none, bulkWait := none }
         ∧ deviceTrapSet t .uplinkDown = true
         ∧ (deviceTrapSet s .uplinkDown = true → t = { s with uplink := t.uplink }))
     ∧ (s.uplink.tx ≠ .down → exec .uplinkRestore s = .next s)
     ∧ (s.uplink.tx ≠ .sending → exec .packetEnd s = .next s)
     ∧ (∀ i, eligibleHead s i = none ∨ s.uplink.tx ≠ .idle → exec (.headEligible i) s = .next s)
     ∧ ((∀ w, s.uplink.wait = some w → s.uplink.credit < w.cost) → (∀ n, s.uplink.bulkWait = some n → s.uplink.credit < n) →
         exec .creditReady s = .next s)
     ∧ ((∀ e, s.uplink.trip = some e → nowOf s < e) → exec .bulkTripExpiry s = .next (finish s s))
     ∧ ∀ e, s.uplink.trip = some e → e ≤ nowOf s →
         exec .bulkTripExpiry s = .next (opportunity { s with uplink := { s.uplink with trip := none } }))
  ∧ (∀ (c : Chan) (s : State),
       ((∀ e, s.channels[c].hold = .held e → nowOf s ≤ e) → exec (.holdTimerExpiry c) s = .next (finish s s))
       ∧ ∀ e, s.channels[c].hold = .held e → e < nowOf s →
         ∃ w, exec (.holdTimerExpiry c) s = .next (finish s w) ∧ deviceTrapSet w .bulkHoldExpired = true
           ∧ w = { s with channels := w.channels, traps := { s.traps with device := w.traps.device }, links := w.links
                          outputs := w.outputs }
           ∧ (∀ d : Chan, d ≠ c → w.channels[d] = s.channels[d])
           ∧ w.channels[c] = { s.channels[c] with hold := .released }
           ∧ (deviceTrapSet s .bulkHoldExpired = true → w = { s with channels := w.channels }))

/-- The header of a packet (R138, R139): where the three fields lie apart, both lengths are written modulo 2^16, every
other byte is the template's, and the words of the sum range, the field standing at an even place in it, sum to
FFFF. -/
def Obligations.HeaderCarriesLengthsAndSum : Prop :=
  ∀ (t : Template) (n : Nat), templateOk t t.bytes.length = true →
    ∀ (bs : Bytes) (word : Nat → Nat), bs = patchedHeader t n →
    (∀ o, word o = 256 * (byteAt bs o).toNat + (byteAt bs (o + 1)).toNat) →
    bs.length = t.bytes.length
    ∧ (∀ o, (o < t.patch1 ∨ t.patch1 + 1 < o) → (o < t.patch2 ∨ t.patch2 + 1 < o) → (o < t.sumAt ∨ t.sumAt + 1 < o) →
        bs[o]? = t.bytes[o]?)
    ∧ ((t.patch2 + 2 ≤ t.sumAt ∨ t.sumAt + 2 ≤ t.patch2) → word t.patch2 = (t.base2.toNat + 20 + n) % 65536)
    ∧ ((t.patch2 + 2 ≤ t.sumAt ∨ t.sumAt + 2 ≤ t.patch2) → (t.patch1 + 2 ≤ t.sumAt ∨ t.sumAt + 2 ≤ t.patch1) →
        (t.patch1 + 2 ≤ t.patch2 ∨ t.patch2 + 2 ≤ t.patch1) → word t.patch1 = (t.base1.toNat + 20 + n) % 65536)
    ∧ (t.sumStart ≤ t.sumAt → t.sumAt + 1 ≤ t.sumLast → (t.sumAt - t.sumStart) % 2 = 0 →
        onesSum 0 ((bs.drop t.sumStart).take (t.sumLast + 1 - t.sumStart)) = 65535)

/-! ## Bulk channels and studio feedback -/

/-- A BULK-SETUP SET in the order of R145, its description as 12.2.1 lays it out. -/
def Obligations.BulkSetupConfiguresTheChannel : Prop :=
  ∀ (l : Link) (r : Record) (s : State), recKind r = 8 → recAction r ≠ 2 →
    (∀ replies st, AtHand s l r replies →
      ((4 ≤ (recUnit r).toNat ∨ recAction r ≠ 1) ∧ st = .badRequest
        ∨ ∃ c : Chan, recUnit r = BitVec.ofNat 8 c.val ∧ recAction r = 1 ∧
          ((s.channels[c].queue ≠ [] ∨ s.channels[c].abandon ≠ none) ∧ st = .wrongState
            ∨ s.channels[c].queue = [] ∧ s.channels[c].abandon = none
              ∧ rangeInside (s.links.get l) (recU64 r 16) 128 = false ∧ st = .window)) →
      ∃ t, exec (.bulkSetupSet l r replies) s = .next t ∧ Answered l (resultOf r st) s t)
    ∧ ∀ (c : Chan) (bs : Bytes) (pb h : Nat) (good : Prop), AtHand s l r [bs] → recUnit r = BitVec.ofNat 8 c.val →
      recAction r = 1 → s.channels[c].queue = [] → s.channels[c].abandon = none →
      rangeInside (s.links.get l) (recU64 r 16) 128 = true → 128 ≤ bs.length → pb = leField bs 0 2 → h = leField bs 2 1 →
      (good ↔ (14 ≤ h ∧ h ≤ 96) ∧ leField bs 3 1 + 2 ≤ h ∧ leField bs 6 1 + 2 ≤ h ∧ leField bs 11 1 + 2 ≤ h
        ∧ leField bs 10 1 < h ∧ leField bs 7 1 ≤ leField bs 10 1 ∧ 1024 ≤ pb ∧ pb ≤ 8192) →
      ∃ t, exec (.bulkSetupSet l r [bs]) s = .next t
        ∧ (¬ good → Answered l (resultOf r .badRequest) s t)
        ∧ (good → ∀ cfg : ChannelConfig, cfg =
            { pb := pb
              template := { bytes := (bs.drop 16).take h, patch1 := leField bs 3 1
                            base1 := BitVec.ofNat 16 (leField bs 4 2), patch2 := leField bs 6 1
                            base2 := BitVec.ofNat 16 (leField bs 8 2), sumStart := leField bs 7 1
                            sumLast := leField bs 10 1, sumAt := leField bs 11 1 } } →
            t.channels[c] = { s.channels[c] with config := some cfg } ∧ t.uplink.chanSeq[c] = 0
            ∧ (s.uplink.tx ≠ .idle →
                ∃ u, u = { s with channels := u.channels, uplink := { s.uplink with chanSeq := u.uplink.chanSeq } }
                  ∧ (∀ d : Chan, d ≠ c → u.channels[d] = s.channels[d] ∧ u.uplink.chanSeq[d] = s.uplink.chanSeq[d])
                  ∧ Answered l (resultOf r .ok) u t))

/-- A BULK-SETUP CLEAR (R146), with its transmit opportunity while the transmitter is IDLE: that the opportunity falls after
the head's advance and the RESULT is the model's choice (R124, log 12, log 34). -/
def Obligations.BulkClearUnconfiguresTheChannel : Prop :=
  ∀ (l : Link) (r : Record) (s : State), Ready s l r [] → recKind r = 8 → recAction r = 2 →
    ∃ t, exec (.bulkSetupClear l r) s = .next t
      ∧ (4 ≤ (recUnit r).toNat → Answered l (resultOf r .badRequest) s t)
      ∧ ∀ c : Chan, recUnit r = BitVec.ofNat 8 c.val →
        (s.channels[c].queue ≠ [] ∨ s.channels[c].abandon ≠ none → Answered l (resultOf r .wrongState) s t)
        ∧ (s.channels[c].queue = [] → s.channels[c].abandon = none →
            (s.channels[c].config = none → Answered l (resultOf r .ok) s t)
            ∧ (s.channels[c].config ≠ none →
                t.channels[c] = { s.channels[c] with config := none }
                ∧ ∃ u, u = { s with channels := u.channels } ∧ (∀ d : Chan, d ≠ c → u.channels[d] = s.channels[d])
                  ∧ t = fetchNextRequest l (opportunity (complete l (resultOf r .ok) (advanceHead l u)))
                  ∧ (s.uplink.tx ≠ .idle → Answered l (resultOf r .ok) u t)))

/-- A BULK-POST in the order of R147; an accepted record joins the channel's queue, its result deferred (R148). -/
def Obligations.BulkPostIsQueuedOrRefused : Prop :=
  ∀ (l : Link) (r : Record) (s : State) (len segs : Nat) (addr : BitVec 64) (bad : Prop),
    recKind r = 9 → len = (recU32 r 8).toNat → segs = (recByte r 12).toNat → addr = recU64 r 16 →
    (bad ↔ segs < 1 ∨ 16 < segs ∨ len = 0 ∨ recInline r = true ∧ 1 < segs) →
    (∀ replies st, AtHand s l r replies →
      ((4 ≤ (recUnit r).toNat ∨ bad) ∧ st = .badRequest
        ∨ ∃ c : Chan, recUnit r = BitVec.ofNat 8 c.val ∧ ¬ bad ∧
          (16777216 < len ∧ st = .tooLong
            ∨ len ≤ 16777216 ∧
              (s.channels[c].config = none ∧ st = .wrongState
                ∨ s.channels[c].config ≠ none ∧
                  (32 ≤ s.channels[c].queue.length ∧ st = .queueFull
                    ∨ s.channels[c].queue.length < 32 ∧ recInline r = false
                      ∧ rangeInside (s.links.get l) addr (16 * segs) = false ∧ st = .window)))) →
      ∃ t, exec (.bulkPost l r replies) s = .next t ∧ Answered l (resultOf r st) s t)
    ∧ ∀ (c : Chan) (replies : List Bytes) (ps : List Piece) (x : BulkRecord), AtHand s l r replies →
      recUnit r = BitVec.ofNat 8 c.val → ¬ bad → len ≤ 16777216 → s.channels[c].config ≠ none →
      s.channels[c].queue.length < 32 →
      (recInline r = true ∧ ps = [{ addr := addr, len := len }]
        ∨ recInline r = false ∧ rangeInside (s.links.get l) addr (16 * segs) = true
          ∧ ∃ bs rest, replies = bs :: rest ∧ 16 * segs ≤ bs.length ∧ ps = parseList segs bs) →
      x = { tag := recTag r, segments := ps, total := len, sent := 0, granted := 0, link := l, owed := true } →
      ∃ t, exec (.bulkPost l r replies) s = .next t
        ∧ ((∃ p ∈ ps, p.len = 0) ∨ (ps.map (·.len)).sum ≠ len → Answered l (resultOf r .badRequest) s t)
        ∧ ((∀ p ∈ ps, p.len ≠ 0) → (ps.map (·.len)).sum = len →
            ((∃ p ∈ ps, rangeInside (s.links.get l) p.addr p.len = false) → Answered l (resultOf r .window) s t)
            ∧ ((∀ p ∈ ps, rangeInside (s.links.get l) p.addr p.len = true) →
                ∃ u, u = { s with channels := u.channels }
                  ∧ u.channels[c] = { s.channels[c] with queue := s.channels[c].queue ++ [x] }
                  ∧ (∀ d : Chan, d ≠ c → u.channels[d] = s.channels[d]) ∧ Deferred l u t))

/-- A BULK-ABORT of either scope (R152, R153): ended records leave the queue and are answered ABORTED in queue order
before the request's own RESULT; where the active record is ended, its blocks and jobs go with it, and an abandon marker
waits if any of its packets has started. -/
def Obligations.BulkAbortEndsRecords : Prop :=
  ∀ (l : Link) (r : Record) (s : State) (cmd : Instr), Ready s l r [] → recKind r = 10 →
    (cmd = .bulkAbortOne l r ∧ recScope r ≠ 2 ∨ cmd = .bulkAbortAll l r ∧ recScope r = 2) →
    ∃ v, exec cmd s = .next (finish s v)
      ∧ (4 ≤ (recUnit r).toNat ∨ recScope r ≠ 1 ∧ recScope r ≠ 2 → Answered l (resultOf r .badRequest) s v)
      ∧ ∀ (c : Chan) (ended kept : List BulkRecord) (hit : BulkRecord → Prop), recUnit r = BitVec.ofNat 8 c.val →
        (∀ x, hit x ↔ x.link = l ∧ (recScope r = 2 ∨ x.tag = recU32 r 8)) →
        (recScope r = 1 ∧ (∃ pre x post, s.channels[c].queue = pre ++ x :: post ∧ hit x ∧ (∀ y ∈ pre, ¬ hit y)
              ∧ ended = [x] ∧ kept = pre ++ post)
          ∨ (recScope r = 1 ∨ recScope r = 2) ∧ (∀ x ∈ s.channels[c].queue, ¬ hit x) ∧ ended = []
              ∧ kept = s.channels[c].queue
          ∨ recScope r = 2 ∧ ended = s.channels[c].queue.filter (fun x => x.link == l)
              ∧ kept = s.channels[c].queue.filter fun x => x.link != l) →
        (ended = [] → Answered l (resultOf r .notFound) s v)
        ∧ (ended ≠ [] → ∃ u, v = fetchNextRequest l (complete l (resultOf r .ok)
              (ended.foldl (fun w x => if x.owed then
                  complete x.link { mkResult .aborted (BitVec.ofNat 8 c.val) x.tag with
                    sent := BitVec.ofNat 32 x.sent
                    dropped := BitVec.ofNat 32 (packetCount s.channels[c] x - x.sent) } w
                else w) (advanceHead l u)))
            ∧ u = { s with channels := u.channels, engines := u.engines, staging := u.staging }
            ∧ (∀ d : Chan, d ≠ c → u.channels[d] = s.channels[d])
            ∧ u.engines.get (otherLink l) = s.engines.get (otherLink l)
            ∧ ∀ x rest, s.channels[c].queue = x :: rest →
              (¬ hit x → u.channels[c] = { s.channels[c] with queue := kept } ∧ u.engines = s.engines
                ∧ u.staging = s.staging)
              ∧ (hit x →
                  u.channels[c] = { s.channels[c] with
                    queue := kept, blocks := []
                    abandon := if 0 < x.sent then
                        some { tag := x.tag, index := x.sent, count := packetCount s.channels[c] x }
                      else s.channels[c].abandon }
                  ∧ u.staging = { s.staging with free := s.staging.free ++ s.channels[c].blocks.map (·.pool) }
                  ∧ ∀ j ∈ (u.engines.get l).jobs, ∀ b, j.work ≠ .bulk c b))

/-- Studio feedback once the recall has ended (R155, R156, R157): the bytes at the feedback offset of a frame are kind,
an unread byte, channel, code and sequence, and at 18 and 19 the payload length. Every case ends in the transmit
opportunity that the model judges by comparing states (log 34); frames before the recall's end are log 32. -/
def Obligations.FeedbackIsJudgedAndActs : Prop :=
  ∀ (frame shim : Bytes) (s : State), s.store.ready = true → shim = frame.drop s.store.active.fbOffset →
    (shim.length < 20 ∨ shim[0]? ≠ some 5 → exec (.feedbackFrame frame) s = .next (finish s s))
    ∧ ∀ k0 fl ch code s1 s0 rest p1 p0 tail, shim = k0 :: fl :: ch :: code :: s1 :: s0 :: (rest ++ p1 :: p0 :: tail) →
      rest.length = 12 → k0 = 5 →
      ∀ ignored, ignored = { s with traps := { s.traps with devCounters := { s.traps.devCounters with
        feedbackIgnored := satAdd s.traps.devCounters.feedbackIgnored 1 } } } →
      (4 ≤ ch.toNat ∨ code ≠ 1 ∧ code ≠ 2 ∨ p1 ≠ 0 ∨ p0 ≠ 0 →
        exec (.feedbackFrame frame) s = .next (finish s ignored))
      ∧ ∀ (c : Chan) (seq : BitVec 16), ch = BitVec.ofNat 8 c.val → (code = 1 ∨ code = 2) → p1 = 0 → p0 = 0 →
        seq = s1 ++ s0 →
        ((∃ last, s.channels[c].lastSeq = some last ∧ ¬ (1 ≤ (seq - last).toNat ∧ (seq - last).toNat ≤ 2 ^ 15 - 1)) →
          exec (.feedbackFrame frame) s = .next (finish s ignored))
        ∧ ((∀ last, s.channels[c].lastSeq = some last → 1 ≤ (seq - last).toNat ∧ (seq - last).toNat ≤ 2 ^ 15 - 1) →
          ∃ w, exec (.feedbackFrame frame) s = .next (finish s w) ∧ w = { s with channels := w.channels }
            ∧ (∀ d : Chan, d ≠ c → w.channels[d] = s.channels[d])
            ∧ w.channels[c] = { s.channels[c] with
                lastSeq := some seq
                hold := if code = 1 then .held (nowOf s + s.store.active.holdLimit * 1000000) else .released })

/-! ## Traps and reports -/

/-- A report of a cause of a trap (R161, R164): at a set trap nothing; at a clear one the trap is set and its notice, with
its code, the slot or 255 and the frame number given, is handed to A and then B for a device trap, to the owner and then
the standby, or to both links for a stream with none, for a per-stream trap; SWITCH writes no TRAP notice. The order of two
links' notices is the model's choice (log 27). -/
def Obligations.TrapsAreAnnouncedAtTheirFirstSetting : Prop :=
  (∀ (s : State) (d : DeviceTrap) (code : BitVec 32) (note : Completion),
     (d, code) ∈ [(.uplinkDown, 0), (.oversub, 1), (.timeClamped, 2), (.poolStarved, 3), (.cplLost .A, 4),
       (.cplLost .B, 5), (.linkDown .A, 6), (.linkDown .B, 7), (.settingsDefaulted, 8), (.bulkHoldExpired, 9)] →
     note = { mkNotice .trap 255 with tag := code } →
     (deviceTrapSet s d = true → raiseDevice d s = s)
     ∧ (deviceTrapSet s d = false → ∃ u, u = { s with traps := { s.traps with device := u.traps.device } }
         ∧ (∀ x, deviceTrapSet u x = (deviceTrapSet s x || x == d))
         ∧ raiseDevice d s = complete .B note (complete .A note u)
         ∧ (Hears s .A → Hears s .B → Announced [.A, .B] note u (raiseDevice d s))))
  ∧ ∀ (s : State) (i : Slot) (fn : BitVec 32),
      (∀ d, streamTrapSet s i d = true → raiseStream i d fn s = s)
      ∧ ∀ d, streamTrapSet s i d = false →
        ∃ u, u = { s with traps := { s.traps with stream := u.traps.stream } }
          ∧ (∀ j : Slot, j ≠ i → u.traps.stream[j] = s.traps.stream[j])
          ∧ (∀ x, streamTrapSet u i x = (streamTrapSet s i x || x == d))
          ∧ (d = .switch → raiseStream i d fn s = u)
          ∧ ∀ (code : BitVec 32) (ls : List Link) (note : Completion), NoticeLinks s.streams[i] ls →
            (d, code) ∈ [(.lateDrop, 16), (.miss, 17), (.fetchFail, 19), (.orphaned, 20)] →
            note = { mkNotice .trap (BitVec.ofNat 8 i.val) with tag := code, fn := fn } →
            raiseStream i d fn s = ls.foldl (fun w m => complete m note w) u
              ∧ ((∀ m ∈ ls, Hears s m) → Announced ls note u (raiseStream i d fn s))

/-- A TRAP-CLEAR of either scope (R165); every trap of a scope has its bit. A REPORT of either scope (R169): the record as 12.4
lays it out is written into engine memory before the RESULT, and the counters of the scope return to 0 where the request
asks for it. -/
def Obligations.TrapClearsAndReportsAreAnswered : Prop :=
  (∀ (l : Link) (r : Record) (s : State) (mask : BitVec 32), Ready s l r [] → recKind r = 15 → mask = recU32 r 12 →
     (recAction r ≠ 2 → ∃ t, exec (.trapClearDevice l r) s = .next t
       ∧ (recAction r ≠ 1 ∨ 2 ^ 10 ≤ mask.toNat → Answered l (resultOf r .badRequest) s t)
       ∧ (recAction r = 1 → mask.toNat < 2 ^ 10 →
           ∃ u, u = { s with traps := { s.traps with device := s.traps.device &&& ~~~(mask.setWidth 16) } }
             ∧ (∀ d, deviceTrapSet u d = (deviceTrapSet s d && !mask.getLsbD (deviceTrapBit d)))
             ∧ Answered l (resultOf r .ok) u t))
     ∧ (recAction r = 2 → ∃ t, exec (.trapClearStream l r) s = .next t
       ∧ (32 ≤ (recUnit r).toNat ∨ 2 ^ 5 ≤ mask.toNat → Answered l (resultOf r .badRequest) s t)
       ∧ ∀ i : Slot, recUnit r = BitVec.ofNat 8 i.val → mask.toNat < 2 ^ 5 →
         ∃ u, u = { s with traps := { s.traps with stream := u.traps.stream } }
           ∧ (∀ j : Slot, j ≠ i → u.traps.stream[j] = s.traps.stream[j])
           ∧ (∀ d, streamTrapSet u i d = (streamTrapSet s i d && !mask.getLsbD (streamTrapBit d)))
           ∧ Answered l (resultOf r .ok) u t))
  ∧ (∀ (l : Link) (r : Record) (s : State), Ready s l r [] → recKind r = 16 →
       (recAction r ≠ 2 → ∃ t, exec (.reportStream l r) s = .next t
         ∧ (32 ≤ (recUnit r).toNat ∨ recAction r ≠ 1 → Answered l (resultOf r .badRequest) s t)
         ∧ ∀ i : Slot, recUnit r = BitVec.ofNat 8 i.val → recAction r = 1 →
           (rangeInside (s.links.get l) (recU64 r 16) 128 = false → Answered l (resultOf r .window) s t)
           ∧ (rangeInside (s.links.get l) (recU64 r 16) 128 = true →
               ∃ u bs, Answered l (resultOf r .ok) u t
                 ∧ u = { s with outputs := s.outputs ++ [.reportWrite l (recU64 r 16) bs]
                                traps := { s.traps with counters := u.traps.counters } }
                 ∧ (∀ j : Slot, j ≠ i ∨ recReset r = false → u.traps.counters[j] = s.traps.counters[j])
                 ∧ (recReset r = true → u.traps.counters[i] = StreamCounters.zero)
                 ∧ bs.length = 128 ∧ leField bs 0 1 = 1 ∧ leField bs 1 1 = i.val
                 ∧ leField bs 2 1 = (stateCode s.streams[i].state).toNat
                 ∧ leField bs 3 1 = (linkCode s.streams[i].owner).toNat
                 ∧ leField bs 4 1 = (linkCode s.streams[i].standby).toNat
                 ∧ leField bs 5 1 = (roleCode s.selectors[i].preferred).toNat
                 ∧ leField bs 6 1 = s.selectors[i].miss % 256 ∧ leField bs 7 1 = s.selectors[i].present % 256
                 ∧ (∀ fn, s.streams[i].lastSel = some fn → leField bs 8 4 = fn.toNat ∧ leField bs 12 1 = 1)
                 ∧ (s.streams[i].lastSel = none → leField bs 8 4 = 0 ∧ leField bs 12 1 = 0)
                 ∧ leField bs 13 1 = s.traps.stream[i].toNat ∧ leField bs 14 2 = 0
                 ∧ leField bs 16 8 = s.clock.time.toNat
                 ∧ leField bs 24 8 = s.traps.counters[i].liveSent.toNat
                 ∧ leField bs 32 8 = s.traps.counters[i].markersSent.toNat
                 ∧ ∀ c, c = s.traps.counters[i] → ∀ j (x : BitVec 32),
                     [c.framesSent, c.framesPartial, c.framesFetchFailed, c.framesStarved, c.framesStale, c.framesShadowed,
                       c.framesTooLong, c.framesWindow, c.framesCancelled, c.framesDiscarded, c.sentPreferred, c.filledIn,
                       c.repeatedAbsent, c.repeatedHolding, c.flips, c.returns, c.dropsLate, c.dropsDown, c.dropsFetch,
                       c.dropsClosed, c.fetchRetries, c.lateness][j]? = some x →
                     leField bs (40 + 4 * j) 4 = x.toNat))
       ∧ (recAction r = 2 → ∃ t, exec (.reportDevice l r) s = .next t
         ∧ (rangeInside (s.links.get l) (recU64 r 16) 128 = false → Answered l (resultOf r .window) s t)
         ∧ (rangeInside (s.links.get l) (recU64 r 16) 128 = true →
               ∃ u bs, Answered l (resultOf r .ok) u t
                 ∧ u = { s with outputs := s.outputs ++ [.reportWrite l (recU64 r 16) bs]
                                traps := { s.traps with
                                  devCounters := if recReset r then DeviceCounters.zero else s.traps.devCounters } }
                 ∧ bs.length = 128 ∧ leField bs 0 1 = 2 ∧ leField bs 1 1 = (if s.admission.oversub then 1 else 0)
                 ∧ leField bs 2 1 = (linkCode s.clock.holder).toNat ∧ leField bs 4 2 = s.traps.device.toNat
                 ∧ leField bs 8 8 = s.clock.time.toNat ∧ leField bs 16 8 = s.traps.devCounters.bulkSent.toNat
                 ∧ leField bs 24 4 = s.traps.devCounters.feedbackIgnored.toNat
                 ∧ leField bs 28 4 = s.traps.devCounters.poolStarvations.toNat
                 ∧ leField bs 32 4 = s.traps.devCounters.bulkRetries.toNat
                 ∧ leField bs 36 4 = s.traps.devCounters.bulkFailures.toNat
                 ∧ leField bs 40 4 = s.traps.devCounters.closingSent.toNat
                 ∧ leField bs 44 4 = s.traps.devCounters.closingDropped.toNat
                 ∧ ∀ j, 48 ≤ j → j < 128 → bs[j]? = some 0)))

/-! ## Management port and settings -/

/-- A map read (R186, R187): bytes from the pointer on, from 0xFF to 0x00, each row as it stood at its first byte within
the transaction; the port does not answer another address, before the recall has ended, or during a store. A write part
over the trap row (R166, log 16): a bit written 0 clears its device trap, or every per-stream trap of its slot; nothing
else changes but the pointer. A commit is ordered, its store begins at the stop and completes (R189). -/
def Obligations.MapReadsTrapClearsAndCommits : Prop :=
  ((∀ (address : BitVec 7) (start : Bool) (n p : Nat) (s : State), p = s.port.pointer.toNat →
      (s.store.ready = false ∨ s.store.storing = true ∨ address ≠ s.port.address →
        exec (.mapRead address start n) s = .next { s with outputs := s.outputs ++ [.notAcknowledged] })
      ∧ (s.store.ready = true → s.store.storing = false → address = s.port.address →
        ∃ t bs, exec (.mapRead address start n) s = .next t
          ∧ t = { s with port := t.port, outputs := s.outputs ++ [.mapBytes bs] }
          ∧ t.port = { s.port with pointer := BitVec.ofNat 8 (p + n), latch := t.port.latch }
          ∧ bs.length = n
          ∧ ∀ j, j < n →
            (start = true ∨ (∀ row old, s.port.latch = some (row, old) → row ≠ p / 8 ∨ 8 ≤ p % 8 + j) →
              bs[j]? = some (mapByte s ((p + j) % 256))
              ∧ (j + 1 = n → t.port.latch = some ((p + j) % 256 / 8, mapRow s ((p + j) % 256 / 8))))
            ∧ (start = false → ∀ old, s.port.latch = some (p / 8, old) → p % 8 + j < 8 →
              bs[j]? = some (byteAt old (p % 8 + j)) ∧ (j + 1 = n → t.port.latch = some (p / 8, old)))))
   ∧ (∀ (address : BitVec 7) (pointer : Byte) (data : Bytes) (s : State),
        (pointer.toNat / 8 ≠ 2 → exec (.mapTrapClear address pointer data) s = .next s)
        ∧ (pointer.toNat / 8 = 2 → acknowledged s address = true →
            ∀ zero : Nat → Nat → Prop, (∀ a b, zero a b ↔ ∃ (j : Nat) (x : Byte), data[j]? = some x
              ∧ a = 16 + (pointer.toNat + j) % 8 ∧ x.getLsbD b = false) →
            ∃ w, exec (.mapTrapClear address pointer data) s = .next (finish s w)
              ∧ w = { s with
                  traps := { s.traps with device := w.traps.device, stream := w.traps.stream }
                  port := { s.port with
                    latch := none, pointer := BitVec.ofNat 8 (16 + (pointer.toNat + data.length) % 8) } }
              ∧ (∀ d, deviceTrapSet w d = true ↔ deviceTrapSet s d = true
                  ∧ ¬ zero (16 + deviceTrapBit d / 8) (deviceTrapBit d % 8))
              ∧ ∀ i : Slot, (zero (20 + i.val / 8) (i.val % 8) → w.traps.stream[i] = 0)
                  ∧ (¬ zero (20 + i.val / 8) (i.val % 8) → w.traps.stream[i] = s.traps.stream[i]))))
  ∧ (∀ (address : BitVec 7) (b : Byte) (s : State),
       (acknowledged s address = true → b = 1 →
         exec (.commit address 0x70 [b]) s = .next (finish s { s with
           store := { s.store with busy := true }, port := { s.port with pointer := 0x71, latch := none } }))
       ∧ (b ≠ 1 → exec (.commit address 0x70 [b]) s = .next s)
       ∧ (s.store.busy = true → s.store.storing = false →
         exec .storeBegin s = .next { s with store := { s.store with
           image := { settings := s.store.active, checkOk := false }, storing := true } })
       ∧ (s.store.busy = false ∨ s.store.storing = true → exec .storeBegin s = .next s)
       ∧ (s.store.storing = true →
         exec .storeCompletion s = .next { s with store := { s.store with
           image := { s.store.image with checkOk := true }, busy := false, storing := false } })
       ∧ (s.store.storing = false → exec .storeCompletion s = .next s)
       ∧ (acknowledged s address = false → exec (.commit address 0x70 [1]) s
           = .next { s with outputs := s.outputs ++ [.notAcknowledged] }))

/-- A write part that writes one whole setting (R186, R188, 11.2): a value in range that fits the others becomes active,
with the credit cut, the trip ended at a trip time of 0 and the sum made anew; another value changes nothing. -/
def Obligations.SettingsTakeValuesInRange : Prop :=
  ∀ (x : SettingId) (v n : Nat) (address : BitVec 7) (pointer : Byte) (data : Bytes) (s : State) (new : Settings)
    (inRange : SettingId → Prop) (accepted : Prop),
    acknowledged s address = true → settingPlace x = (pointer.toNat, n) → v < 256 ^ n → data = leBytes n v →
    new = putSetting x v s.store.active →
    (∀ y, inRange y ↔ match y with
      | .rate => 1000 ≤ v ∧ v ≤ 25000000
      | .ceiling => 50 ≤ v ∧ v ≤ 100
      | .lineRate => v = 10 ∨ v = 25
      | .retries => v ≤ 7
      | .rolePref => v ≤ 2
      | .floor => True
      | .burst => 9216 ≤ v ∧ v ≤ 1048576
      | .holdLimit => 100 ≤ v ∧ v ≤ 10000
      | .tripTime => v ≤ 1000
      | .fbOffset => 14 ≤ v ∧ v ≤ 96
      | .i2c => 8 ≤ v ∧ v ≤ 119) →
    (accepted ↔ inRange x
      ∧ (x = .rate ∨ x = .lineRate → new.rate ≤ new.lineRate * 1000000 ∧ new.rate ≤ s.uplink.portRate * 1000000)
      ∧ (x = .rate ∨ x = .floor → new.floor ≤ new.rate)) →
    ∃ w, exec (.settingsWrite address pointer data) s = .next (finish s w)
      ∧ w.port = { s.port with
          latch := none, pointer := BitVec.ofNat 8 (pointer.toNat / 8 * 8 + (pointer.toNat + n) % 8) }
      ∧ (¬ accepted → w = { s with port := w.port })
      ∧ (accepted →
          w.store = { s.store with active := new }
          ∧ w.uplink = { s.uplink with
              credit := min s.uplink.credit (new.burst * 8 * 1000000)
              trip := if new.tripTime = 0 then none else s.uplink.trip }
          ∧ AdmissionInv w
          ∧ (∀ b, w.admission.oversub = true → s.admission.oversub = false →
              deviceTrapSet w b = (deviceTrapSet s b || b == .oversub) ∨ ∃ m, b = .cplLost m)
          ∧ (w.admission.oversub = false ∨ s.admission.oversub = true →
              w = { s with store := w.store, uplink := w.uplink, admission := w.admission, port := w.port }))

/-- The pacing reset (R191 with R17, R47, R69, R88, R106, R121, R122, R144, R160, R170, R185): the state it leaves, and what
it hands over, which is the DISCARDED results of amendments and CLOSEs slot by slot, those of frame records slot by slot,
HELD before QUEUED, those of bulk records channel by channel, and the RESET notice. Each link's order is the spec's; the
order of completions on different links is log 27, and a bulk record's packets-dropped field is free (log 35). -/
def Obligations.PacingResetClearsThePacingState : Prop :=
  ∀ (address : BitVec 7) (s : State), acknowledged s address = true →
    ∃ w, exec (.pacingReset address 0x71 [1]) s = .next (finish s w)
      ∧ (∀ i : Slot, w.streams[i] = closedRecord s.streams[i] ∧ w.selectors[i] = Selector.initial
          ∧ w.scheds[i] = { glide := none, groups := [] } ∧ (∀ l, queueOf w l i = [])
          ∧ w.traps.stream[i] = 0 ∧ w.traps.counters[i] = StreamCounters.zero)
      ∧ (∀ l, w.engines.get l = { s.engines.get l with jobs := [], outstanding := [], retry := [] })
      ∧ w.staging = { s.staging with free := List.range 8192 }
      ∧ (∀ c : Chan, w.channels[c] = { config := none, queue := [], blocks := [], abandon := none, hold := .released
                                       lastSeq := none })
      ∧ w.uplink = { s.uplink with
          credit := s.store.active.burst * 8 * 1000000, wait := none, bulkWait := none, trip := none, rr := 3
          slotSeq := Vector.replicate 32 0, chanSeq := Vector.replicate 4 0 }
      ∧ AdmissionInv w ∧ w.traps.devCounters = s.traps.devCounters ∧ w.clock = s.clock ∧ w.store = s.store
      ∧ w.port = { s.port with pointer := 0x72, latch := none } ∧ w.pending = s.pending
      ∧ (∀ l, (w.links.get l).up = (s.links.get l).up ∧ (w.links.get l).windows = (s.links.get l).windows
          ∧ (w.links.get l).request = (s.links.get l).request ∧ (w.links.get l).reqHead = (s.links.get l).reqHead)
      ∧ (∀ d, deviceTrapSet s d = true → deviceTrapSet w d = true)
      ∧ (AdmissionInv s → ∃ dropped : Chan → BulkRecord → BitVec 32, ∀ t, t = handed (
            (allSlots.flatMap fun i =>
              (match s.streams[i].staged with
                | some a => [(a.link, mkResult .discarded (BitVec.ofNat 8 i.val) a.tag)]
                | none => [])
              ++ match s.streams[i].pendingClose with
                | some p => if p.owed then [(p.link, mkResult .discarded (BitVec.ofNat 8 i.val) p.tag)] else []
                | none => [])
            ++ (allSlots.flatMap fun i =>
              (s.scheds[i].groups.flatMap fun g =>
                match g.kind with
                | .frame f => owedResult i .discarded f.record
                | _ => [])
              ++ [.A, .B].flatMap fun l => (queueOf s l i).flatMap (owedResult i .discarded))
            ++ (allChans.flatMap fun c => s.channels[c].queue.flatMap fun r =>
              if r.owed then
                [(r.link, { mkResult .discarded (BitVec.ofNat 8 c.val) r.tag with
                  sent := BitVec.ofNat 32 r.sent, dropped := dropped c r })]
              else [])
            ++ [(.A, mkNotice .reset 255), (.B, mkNotice .reset 255)]) s →
          w.links = t.links ∧ w.outputs = t.outputs ∧ w.traps.device = t.traps.device
            ∧ ∀ d, deviceTrapSet w d = true → deviceTrapSet s d = true ∨ ∃ m, d = .cplLost m)

/-! ## Invariants -/

/-- State.reset meets every invariant. -/
def Obligations.ResetMeetsEveryInvariant : Prop :=
  ClockInv State.reset ∧ StagingInv State.reset ∧ SettingsInv State.reset ∧ CreditInv State.reset ∧ RoleInv State.reset
    ∧ MembershipInv State.reset ∧ EndInv State.reset ∧ DepthInv State.reset ∧ AdmissionInv State.reset

/-- Clock figures in range (R3, R4, R7, R10), the role held by an UP link (R11), and the members of every stream as its
state has them (R18, R20, R43 to R46), after any command from any state that has them so. -/
def Obligations.EveryStepKeepsClockRoleAndMembers : Prop :=
  ∀ s t : State, ClockInv s → RoleInv s → MembershipInv s → step s = .next t →
    ClockInv t ∧ RoleInv t ∧ MembershipInv t

/-- END entries have arrived, and an END group stands only in a DRAINING slot's list, alone of its kind and with no FRAME or
REPEAT group, after any command from any state that has it so (R34, R35, R60, R67). -/
def Obligations.EveryStepKeepsEndMarkersLast : Prop :=
  ∀ s t : State, EndInv s → step s = .next t → EndInv t

/-- Settings in range (R188, R190), credit between 0 and its cap (R125), queues and channels within their depths (R71,
R147, R150), staging in canonical form, and the admission sum and condition those of the streams and settings (R27, R28),
after any command. -/
def Obligations.EveryStepKeepsSettingsCreditAdmissionAndDepths : Prop :=
  (∀ s t : State, SettingsInv s → CreditInv s → DepthInv s → StagingInv s → step s = .next t →
     SettingsInv t ∧ CreditInv t ∧ DepthInv t ∧ StagingInv t)
  ∧ (∀ s t : State, AdmissionInv s → step s = .next t → AdmissionInv t)

/-- Station time never decreases except at power-on and at a STEP taken while no stream is ARMED, RUNNING, DRAINING or
HOLDING (R2), short of its end (log 7). -/
def Obligations.StationTimeNeverDecreases : Prop :=
  ∀ (c : Instr) (s t : State), ClockInv s → s.clock.time.toNat + 3 < 2 ^ 64 → exec c s = .next t →
    (∀ up, c ≠ .powerOnReset up) → ((∀ l r, c ≠ .timeSetStep l r) ∨ ∃ i : Slot, s.streams[i].state ≠ .closed) →
    s.clock.time.toNat ≤ t.clock.time.toNat
end

