-- ==== Sys2Proof/Laws/Memory.lean ====
section
/-!
SUPPORT. The staging bytes: every write keeps the canonical form, reads back what it wrote and leaves the other bytes
as they were.
-/

namespace Sys2Proof.Machine

/-- A canonical list's tail is canonical. -/
theorem Memory.wf_tail {k : Nat} {v : Byte} {m : List Host.Cell} (h : Memory.wf ((k, v) :: m) = true) :
    Memory.wf m = true := by
  cases m with
  | nil => rfl
  | cons c m =>
    obtain ⟨k', v'⟩ := c
    simp only [Memory.wf, Bool.and_eq_true] at h
    exact h.2

/-- A canonical list's first byte is not 0. -/
theorem Memory.wf_head {k : Nat} {v : Byte} {m : List Host.Cell} (h : Memory.wf ((k, v) :: m) = true) : v ≠ 0 := by
  cases m with
  | nil => simpa [Memory.wf] using h
  | cons c m =>
    obtain ⟨k', v'⟩ := c
    simp only [Memory.wf, Bool.and_eq_true, bne_iff_ne] at h
    exact h.1.1

/-- The addresses of a canonical list lie above its first. -/
theorem Memory.wf_above {k : Nat} {v : Byte} {m : List Host.Cell} (h : Memory.wf ((k, v) :: m) = true) :
    ∀ c ∈ m, k < c.1 := by
  induction m generalizing k v with
  | nil => simp
  | cons c m ih =>
    obtain ⟨k', v'⟩ := c
    have ht := Memory.wf_tail h
    simp only [Memory.wf, Bool.and_eq_true, decide_eq_true_eq] at h
    intro d hd
    rcases List.mem_cons.1 hd with rfl | hd
    · exact h.1.2
    · exact Nat.lt_trans h.1.2 (ih ht d hd)

/-- A byte that is not 0 put before addresses that lie above it keeps the canonical form. -/
theorem Memory.wf_cons {k : Nat} {v : Byte} {m : List Host.Cell} (hv : v ≠ 0) (hm : Memory.wf m = true)
    (above : ∀ c ∈ m, k < c.1) : Memory.wf ((k, v) :: m) = true := by
  cases m with
  | nil => simpa [Memory.wf] using hv
  | cons c m =>
    obtain ⟨k', v'⟩ := c
    have := above (k', v') (by simp)
    simp only [Memory.wf, Bool.and_eq_true, bne_iff_ne, decide_eq_true_eq]
    exact ⟨⟨hv, this⟩, hm⟩

/-- An address of a list after a write was there before, or is the one written. -/
theorem Memory.mem_write {m : List Host.Cell} {a : Nat} {b : Byte} {c : Host.Cell} (h : c ∈ Memory.write m a b) :
    c ∈ m ∨ c.1 = a := by
  induction m with
  | nil =>
    simp only [Memory.write] at h
    split at h <;> simp_all
  | cons d m ih =>
    obtain ⟨k, v⟩ := d
    simp only [Memory.write] at h
    split at h
    · split at h <;> simp_all
      rcases h with rfl | h | h <;> simp_all
    · split at h
      · split at h <;> simp_all
        rcases h with rfl | h <;> simp_all
      · simp only [List.mem_cons] at h ⊢
        rcases h with rfl | h
        · simp
        · rcases ih h with h | h <;> simp_all

/-- A write keeps the canonical form. -/
theorem Memory.wf_write {m : List Host.Cell} (h : Memory.wf m = true) (a : Nat) (b : Byte) :
    Memory.wf (Memory.write m a b) = true := by
  induction m with
  | nil => simp only [Memory.write]; split <;> simp_all [Memory.wf]
  | cons d m ih =>
    obtain ⟨k, v⟩ := d
    have ht := Memory.wf_tail h
    have habove := Memory.wf_above h
    simp only [Memory.write]
    split
    next lt =>
      split
      · exact h
      next hb =>
        refine Memory.wf_cons hb h fun c hc => ?_
        rcases List.mem_cons.1 hc with rfl | hc
        · exact lt
        · exact Nat.lt_trans lt (habove c hc)
    next =>
      split
      next e =>
        split
        · exact ht
        next hb => exact Memory.wf_cons hb ht (e ▸ habove)
      next =>
        refine Memory.wf_cons (Memory.wf_head h) (ih ht) fun c hc => ?_
        rcases Memory.mem_write hc with hc | hc
        · exact habove c hc
        · omega

/-- An address below every listed one reads 0. -/
theorem Memory.read_below {m : List Host.Cell} {a : Nat} (above : ∀ c ∈ m, a < c.1) : Memory.read m a = 0 := by
  induction m with
  | nil => rfl
  | cons c m ih =>
    obtain ⟨k, v⟩ := c
    have hk := above (k, v) (by simp)
    simp only [Memory.read]
    rw [if_neg (by omega)]
    exact ih fun c hc => above c (by simp [hc])

/-- A write reads back. -/
theorem Memory.read_write_same {m : List Host.Cell} (h : Memory.wf m = true) (a : Nat) (b : Byte) :
    Memory.read (Memory.write m a b) a = b := by
  induction m with
  | nil => simp only [Memory.write]; split <;> simp_all [Memory.read]
  | cons d m ih =>
    obtain ⟨k, v⟩ := d
    have habove := Memory.wf_above h
    simp only [Memory.write]
    split
    next lt =>
      split
      next hb =>
        rw [hb]
        refine Memory.read_below fun c hc => ?_
        rcases List.mem_cons.1 hc with rfl | hc
        · exact lt
        · exact Nat.lt_trans lt (habove c hc)
      · simp [Memory.read]
    next =>
      split
      next e =>
        split
        next hb => rw [hb]; exact Memory.read_below (e ▸ habove)
        · simp [Memory.read]
      next ne =>
        simp only [Memory.read]
        rw [if_neg (fun e => ne e.symm)]
        exact ih (Memory.wf_tail h)

/-- A write leaves every other address alone. -/
theorem Memory.read_write_other {m : List Host.Cell} {a x : Nat} (b : Byte) (ne : x ≠ a) :
    Memory.read (Memory.write m a b) x = Memory.read m x := by
  induction m with
  | nil =>
    simp only [Memory.write]
    split
    · rfl
    · simp only [Memory.read]; rw [if_neg (fun e => ne e.symm)]
  | cons d m ih =>
    obtain ⟨k, v⟩ := d
    simp only [Memory.write]
    split
    next =>
      split
      · rfl
      · rw [Memory.read, if_neg (fun e => ne e.symm)]
    next =>
      split
      next e =>
        split
        · simp only [Memory.read]; rw [if_neg (fun h => ne (h.symm.trans e.symm))]
        · simp only [Memory.read]
          rw [if_neg (fun h => ne h.symm), if_neg (fun h => ne (h.symm.trans e.symm))]
      next =>
        simp only [Memory.read]
        split
        · rfl
        · exact ih

/-- A run of writes keeps the canonical form. -/
theorem Memory.wf_writeRun {m : List Host.Cell} (h : Memory.wf m = true) (a : Nat) (bs : Bytes) :
    Memory.wf (Memory.writeRun m a bs) = true := by
  induction bs generalizing m a with
  | nil => exact h
  | cons b bs ih => exact ih (Memory.wf_write h a b) (a + 1)

/-- A run of writes leaves every address outside it alone. -/
theorem Memory.read_writeRun_other {m : List Host.Cell} {a x : Nat} {bs : Bytes} (out : x < a ∨ a + bs.length ≤ x) :
    Memory.read (Memory.writeRun m a bs) x = Memory.read m x := by
  induction bs generalizing m a with
  | nil => rfl
  | cons b bs ih =>
    simp only [List.length_cons] at out
    rw [Memory.writeRun, ih (by omega), Memory.read_write_other b (by omega)]

/-- A run of writes reads back. -/
theorem Memory.read_writeRun {m : List Host.Cell} (h : Memory.wf m = true) (a : Nat) (bs : Bytes) (j : Nat)
    (lt : j < bs.length) : Memory.read (Memory.writeRun m a bs) (a + j) = bs[j] := by
  induction bs generalizing m a j with
  | nil => simp at lt
  | cons b bs ih =>
    rw [Memory.writeRun]
    cases j with
    | zero =>
      rw [Memory.read_writeRun_other (by omega)]
      exact Memory.read_write_same h a b
    | succ j =>
      have := ih (Memory.wf_write h a b) (a + 1) j (by simpa using lt)
      simpa [Nat.add_comm, Nat.add_left_comm] using this

/-- Bytes written to a pool block keep the staging bytes canonical. -/
theorem writeBlock_wf {s : State} (h : Memory.wf s.staging.mem = true) (block off : Nat) (bs : Bytes) :
    Memory.wf (writeBlock block off bs s).staging.mem = true :=
  Memory.wf_writeRun h _ bs

/-- The staging bytes at reset are canonical. -/
theorem reset_staging_wf : Memory.wf State.reset.staging.mem = true := rfl

end Sys2Proof.Machine
end

