-- ==== Sys2Proof/Laws/PerInstr.lean ====
section
/-!
SUPPORT. A lemma for each command, as syntax: the request record of a well-formed command is of its row's kind.
-/

namespace Sys2Proof.Laws.Shape

open Sys2Proof.Machine

/-- The request record a command carries. -/
def requestOf : Instr → Option Record
  | .unknownKind _ r | .nop _ r | .window _ r | .openStream _ r _ | .amend _ r _ | .closeGraceful _ r
  | .closeImmediate _ r | .standbyJoin _ r | .standbyLeave _ r | .adopt _ r | .submit _ r _ | .cancelOne _ r
  | .cancelThrough _ r | .timeSetTrim _ r | .timeSetStep _ r | .roleTake _ r | .roleRelease _ r
  | .bulkSetupSet _ r _ | .bulkSetupClear _ r | .bulkPost _ r _ | .bulkAbortOne _ r | .bulkAbortAll _ r
  | .trapClearDevice _ r | .trapClearStream _ r | .reportStream _ r | .reportDevice _ r => some r
  | .powerOnReset _ | .settingsRecallEnd | .nominalNanosecond | .absorption | .stationTimeLowRead _ | .bind _
  | .unbind _ | .pcieLinkLoss _ | .pcieFunctionReset _ | .registerWrite _ | .requestTailWrite _ _
  | .requestReadTimeout _ | .requestReadError _ | .completionHeadWrite _ _ | .frameSelectionEvent _
  | .readIssue _ | .readCompletion _ _ _ | .readTimeout _ _ | .readError _ _ | .bulkBlockAsk _
  | .headEligible _ | .deadlineExpiry _ | .creditReady | .bulkTripExpiry | .packetEnd | .uplinkLoss
  | .uplinkRestore | .feedbackFrame _ | .holdTimerExpiry _ | .mapRead _ _ _ | .settingsWrite _ _ _
  | .mapTrapClear _ _ _ | .commit _ _ _ | .storeCompletion | .pacingReset _ _ _ | .storeBegin => none

/-- The request kind of a command's row is this one (12.2); a row of no request has none. -/
def kindFits : Instr → Nat → Bool
  | .unknownKind _ _, k => k == 0 || decide (16 < k)
  | .nop _ _, k => k == 12
  | .window _ _, k => k == 11
  | .openStream _ _ _, k => k == 1
  | .amend _ _ _, k => k == 2
  | .closeGraceful _ _, k => k == 3
  | .closeImmediate _ _, k => k == 3
  | .standbyJoin _ _, k => k == 5
  | .standbyLeave _ _, k => k == 5
  | .adopt _ _, k => k == 4
  | .submit _ _ _, k => k == 6
  | .cancelOne _ _, k => k == 7
  | .cancelThrough _ _, k => k == 7
  | .timeSetTrim _ _, k => k == 13
  | .timeSetStep _ _, k => k == 13
  | .roleTake _ _, k => k == 14
  | .roleRelease _ _, k => k == 14
  | .bulkSetupSet _ _ _, k => k == 8
  | .bulkSetupClear _ _, k => k == 8
  | .bulkPost _ _ _, k => k == 9
  | .bulkAbortOne _ _, k => k == 10
  | .bulkAbortAll _ _, k => k == 10
  | .trapClearDevice _ _, k => k == 15
  | .trapClearStream _ _, k => k == 15
  | .reportStream _ _, k => k == 16
  | .reportDevice _ _, k => k == 16
  | .powerOnReset _, _ | .settingsRecallEnd, _ | .nominalNanosecond, _ | .absorption, _
  | .stationTimeLowRead _, _ | .bind _, _ | .unbind _, _ | .pcieLinkLoss _, _ | .pcieFunctionReset _, _
  | .registerWrite _, _ | .requestTailWrite _ _, _ | .requestReadTimeout _, _ | .requestReadError _, _
  | .completionHeadWrite _ _, _ | .frameSelectionEvent _, _ | .readIssue _, _ | .readCompletion _ _ _, _
  | .readTimeout _ _, _ | .readError _ _, _ | .bulkBlockAsk _, _ | .headEligible _, _ | .deadlineExpiry _, _
  | .creditReady, _ | .bulkTripExpiry, _ | .packetEnd, _ | .uplinkLoss, _ | .uplinkRestore, _
  | .feedbackFrame _, _ | .holdTimerExpiry _, _ | .mapRead _ _ _, _ | .settingsWrite _ _ _, _
  | .mapTrapClear _ _ _, _ | .commit _ _ _, _ | .storeCompletion, _ | .pacingReset _ _ _, _ | .storeBegin, _ => false

/-- The request record of a well-formed command is of its row's kind. -/
def Statement (i : Instr) : Prop := i.wellFormed = true → ∀ r, requestOf i = some r → kindFits i (recKind r) = true

/-- A command without a request record. -/
theorem of_none {i : Instr} (h : requestOf i = none) : Statement i := by
  intro _ r hr
  rw [h] at hr
  cases hr

theorem powerOnReset (uplinkUp : Bool) : Statement (.powerOnReset uplinkUp) := of_none rfl

theorem settingsRecallEnd : Statement .settingsRecallEnd := of_none rfl

theorem nominalNanosecond : Statement .nominalNanosecond := of_none rfl

theorem absorption : Statement .absorption := of_none rfl

theorem stationTimeLowRead (l : Link) : Statement (.stationTimeLowRead l) := of_none rfl

theorem bind (l : Link) : Statement (.bind l) := of_none rfl

theorem unbind (l : Link) : Statement (.unbind l) := of_none rfl

theorem pcieLinkLoss (l : Link) : Statement (.pcieLinkLoss l) := of_none rfl

theorem pcieFunctionReset (l : Link) : Statement (.pcieFunctionReset l) := of_none rfl

theorem registerWrite (target : RegisterTarget) : Statement (.registerWrite target) := of_none rfl

theorem requestTailWrite (l : Link) (value : BitVec 32) : Statement (.requestTailWrite l value) := of_none rfl

theorem requestReadTimeout (l : Link) : Statement (.requestReadTimeout l) := of_none rfl

theorem requestReadError (l : Link) : Statement (.requestReadError l) := of_none rfl

theorem unknownKind (l : Link) (r : Record) : Statement (.unknownKind l r) := by
  rintro h _ ⟨⟩
  simp_all [Instr.wellFormed, kindFits]

theorem nop (l : Link) (r : Record) : Statement (.nop l r) := by
  rintro h _ ⟨⟩
  simp_all [Instr.wellFormed, kindFits]

theorem window (l : Link) (r : Record) : Statement (.window l r) := by
  rintro h _ ⟨⟩
  simp_all [Instr.wellFormed, kindFits]

theorem openStream (l : Link) (r : Record) (replies : List Bytes) : Statement (.openStream l r replies) := by
  rintro h _ ⟨⟩
  simp_all [Instr.wellFormed, kindFits]

theorem amend (l : Link) (r : Record) (replies : List Bytes) : Statement (.amend l r replies) := by
  rintro h _ ⟨⟩
  simp_all [Instr.wellFormed, kindFits]

theorem closeGraceful (l : Link) (r : Record) : Statement (.closeGraceful l r) := by
  rintro h _ ⟨⟩
  simp_all [Instr.wellFormed, kindFits, firstRow]

theorem closeImmediate (l : Link) (r : Record) : Statement (.closeImmediate l r) := by
  rintro h _ ⟨⟩
  simp_all [Instr.wellFormed, kindFits, secondRow]

theorem standbyJoin (l : Link) (r : Record) : Statement (.standbyJoin l r) := by
  rintro h _ ⟨⟩
  simp_all [Instr.wellFormed, kindFits, firstRow]

theorem standbyLeave (l : Link) (r : Record) : Statement (.standbyLeave l r) := by
  rintro h _ ⟨⟩
  simp_all [Instr.wellFormed, kindFits, secondRow]

theorem adopt (l : Link) (r : Record) : Statement (.adopt l r) := by
  rintro h _ ⟨⟩
  simp_all [Instr.wellFormed, kindFits]

theorem submit (l : Link) (r : Record) (replies : List Bytes) : Statement (.submit l r replies) := by
  rintro h _ ⟨⟩
  simp_all [Instr.wellFormed, kindFits]

theorem cancelOne (l : Link) (r : Record) : Statement (.cancelOne l r) := by
  rintro h _ ⟨⟩
  simp_all [Instr.wellFormed, kindFits]

theorem cancelThrough (l : Link) (r : Record) : Statement (.cancelThrough l r) := by
  rintro h _ ⟨⟩
  simp_all [Instr.wellFormed, kindFits]

theorem timeSetTrim (l : Link) (r : Record) : Statement (.timeSetTrim l r) := by
  rintro h _ ⟨⟩
  simp_all [Instr.wellFormed, kindFits, firstRow]

theorem timeSetStep (l : Link) (r : Record) : Statement (.timeSetStep l r) := by
  rintro h _ ⟨⟩
  simp_all [Instr.wellFormed, kindFits, secondRow]

theorem roleTake (l : Link) (r : Record) : Statement (.roleTake l r) := by
  rintro h _ ⟨⟩
  simp_all [Instr.wellFormed, kindFits, firstRow]

theorem roleRelease (l : Link) (r : Record) : Statement (.roleRelease l r) := by
  rintro h _ ⟨⟩
  simp_all [Instr.wellFormed, kindFits, secondRow]

theorem bulkSetupSet (l : Link) (r : Record) (replies : List Bytes) : Statement (.bulkSetupSet l r replies) := by
  rintro h _ ⟨⟩
  simp_all [Instr.wellFormed, kindFits, firstRow]

theorem bulkSetupClear (l : Link) (r : Record) : Statement (.bulkSetupClear l r) := by
  rintro h _ ⟨⟩
  simp_all [Instr.wellFormed, kindFits, secondRow]

theorem bulkPost (l : Link) (r : Record) (replies : List Bytes) : Statement (.bulkPost l r replies) := by
  rintro h _ ⟨⟩
  simp_all [Instr.wellFormed, kindFits]

theorem bulkAbortOne (l : Link) (r : Record) : Statement (.bulkAbortOne l r) := by
  rintro h _ ⟨⟩
  simp_all [Instr.wellFormed, kindFits]

theorem bulkAbortAll (l : Link) (r : Record) : Statement (.bulkAbortAll l r) := by
  rintro h _ ⟨⟩
  simp_all [Instr.wellFormed, kindFits]

theorem trapClearDevice (l : Link) (r : Record) : Statement (.trapClearDevice l r) := by
  rintro h _ ⟨⟩
  simp_all [Instr.wellFormed, kindFits, firstRow]

theorem trapClearStream (l : Link) (r : Record) : Statement (.trapClearStream l r) := by
  rintro h _ ⟨⟩
  simp_all [Instr.wellFormed, kindFits, secondRow]

theorem reportStream (l : Link) (r : Record) : Statement (.reportStream l r) := by
  rintro h _ ⟨⟩
  simp_all [Instr.wellFormed, kindFits, firstRow]

theorem reportDevice (l : Link) (r : Record) : Statement (.reportDevice l r) := by
  rintro h _ ⟨⟩
  simp_all [Instr.wellFormed, kindFits, secondRow]

theorem completionHeadWrite (l : Link) (value : BitVec 32) : Statement (.completionHeadWrite l value) := of_none rfl

theorem frameSelectionEvent (slot : Slot) : Statement (.frameSelectionEvent slot) := of_none rfl

theorem readIssue (l : Link) : Statement (.readIssue l) := of_none rfl

theorem readCompletion (l : Link) (attempt : Nat) (data : Bytes) :
    Statement (.readCompletion l attempt data) := of_none rfl

theorem readTimeout (l : Link) (attempt : Nat) : Statement (.readTimeout l attempt) := of_none rfl

theorem readError (l : Link) (attempt : Nat) : Statement (.readError l attempt) := of_none rfl

theorem bulkBlockAsk (c : Chan) : Statement (.bulkBlockAsk c) := of_none rfl

theorem headEligible (slot : Slot) : Statement (.headEligible slot) := of_none rfl

theorem deadlineExpiry (slot : Slot) : Statement (.deadlineExpiry slot) := of_none rfl

theorem creditReady : Statement .creditReady := of_none rfl

theorem bulkTripExpiry : Statement .bulkTripExpiry := of_none rfl

theorem packetEnd : Statement .packetEnd := of_none rfl

theorem uplinkLoss : Statement .uplinkLoss := of_none rfl

theorem uplinkRestore : Statement .uplinkRestore := of_none rfl

theorem feedbackFrame (frame : Bytes) : Statement (.feedbackFrame frame) := of_none rfl

theorem holdTimerExpiry (c : Chan) : Statement (.holdTimerExpiry c) := of_none rfl

theorem mapRead (address : BitVec 7) (start : Bool) (count : Nat) :
    Statement (.mapRead address start count) := of_none rfl

theorem settingsWrite (address : BitVec 7) (pointer : Byte) (data : Bytes) :
    Statement (.settingsWrite address pointer data) := of_none rfl

theorem mapTrapClear (address : BitVec 7) (pointer : Byte) (data : Bytes) :
    Statement (.mapTrapClear address pointer data) := of_none rfl

theorem commit (address : BitVec 7) (pointer : Byte) (data : Bytes) :
    Statement (.commit address pointer data) := of_none rfl

theorem storeCompletion : Statement .storeCompletion := of_none rfl

theorem pacingReset (address : BitVec 7) (pointer : Byte) (data : Bytes) :
    Statement (.pacingReset address pointer data) := of_none rfl

theorem storeBegin : Statement .storeBegin := of_none rfl

end Sys2Proof.Laws.Shape
end

