-- ==== Sys2Proof/Laws/State.lean ====
section
/-!
SUPPORT. What each update of one block leaves of the state, field by field, and reading back what was written to a
table or to a link's item.
-/

namespace Sys2Proof.Machine

/-! ## Tables and per-link items -/

@[simp] theorem PerLink.get_modify_same {α : Type} (p : PerLink α) (l : Link) (f : α → α) :
    (p.modify l f).get l = f (p.get l) := by cases l <;> rfl

@[simp] theorem PerLink.get_modify_other {α : Type} (p : PerLink α) (l : Link) (f : α → α) :
    (p.modify l f).get (otherLink l) = p.get (otherLink l) := by cases l <;> rfl

theorem PerLink.get_modify_ne {α : Type} (p : PerLink α) {l m : Link} (f : α → α) (h : m ≠ l) :
    (p.modify l f).get m = p.get m := by cases l <;> cases m <;> first | rfl | exact absurd rfl h

theorem PerLink.ext_get {α : Type} {p q : PerLink α} (h : ∀ l, p.get l = q.get l) : p = q := by
  cases p; cases q; exact congr (congrArg _ (h .A)) (h .B)

@[simp] theorem otherLink_otherLink (l : Link) : otherLink (otherLink l) = l := by cases l <;> rfl

theorem otherLink_ne (l : Link) : otherLink l ≠ l := by cases l <;> decide

theorem eq_otherLink_of_ne {l m : Link} (h : m ≠ l) : m = otherLink l := by
  cases l <;> cases m <;> first | rfl | exact absurd rfl h

@[simp] theorem updAt_same {α : Type} {n : Nat} (v : Vector α n) (i : Fin n) (f : α → α) :
    (updAt v i f)[i] = f v[i] := by simp [updAt]

theorem updAt_ne {α : Type} {n : Nat} (v : Vector α n) {i j : Fin n} (f : α → α) (h : j ≠ i) :
    (updAt v i f)[j] = v[j] := by
  have : (i : Nat) ≠ (j : Nat) := fun e => h (Fin.ext e.symm)
  simp [updAt, this]

theorem updAt_get {α : Type} {n : Nat} (v : Vector α n) (i j : Fin n) (f : α → α) :
    (updAt v i f)[j] = if j = i then f v[i] else v[j] := by
  split
  · subst_vars; exact updAt_same v _ f
  · exact updAt_ne v f ‹_›

theorem updAt_id {α : Type} {n : Nat} (v : Vector α n) (i : Fin n) {f : α → α} (h : f v[i] = v[i]) :
    updAt v i f = v := by
  have h' : f v[(i : Nat)] = v[(i : Nat)] := h
  simp [updAt, h']

/-! ## Updates of one block -/

@[simp] theorem modClock_clock (f : Clock → Clock) (s : State) :
    (modClock f s).clock = f s.clock := rfl
@[simp] theorem modClock_links (f : Clock → Clock) (s : State) :
    (modClock f s).links = s.links := rfl
@[simp] theorem modClock_streams (f : Clock → Clock) (s : State) :
    (modClock f s).streams = s.streams := rfl
@[simp] theorem modClock_admission (f : Clock → Clock) (s : State) :
    (modClock f s).admission = s.admission := rfl
@[simp] theorem modClock_queues (f : Clock → Clock) (s : State) :
    (modClock f s).queues = s.queues := rfl
@[simp] theorem modClock_selectors (f : Clock → Clock) (s : State) :
    (modClock f s).selectors = s.selectors := rfl
@[simp] theorem modClock_scheds (f : Clock → Clock) (s : State) :
    (modClock f s).scheds = s.scheds := rfl
@[simp] theorem modClock_engines (f : Clock → Clock) (s : State) :
    (modClock f s).engines = s.engines := rfl
@[simp] theorem modClock_staging (f : Clock → Clock) (s : State) :
    (modClock f s).staging = s.staging := rfl
@[simp] theorem modClock_uplink (f : Clock → Clock) (s : State) :
    (modClock f s).uplink = s.uplink := rfl
@[simp] theorem modClock_channels (f : Clock → Clock) (s : State) :
    (modClock f s).channels = s.channels := rfl
@[simp] theorem modClock_traps (f : Clock → Clock) (s : State) :
    (modClock f s).traps = s.traps := rfl
@[simp] theorem modClock_store (f : Clock → Clock) (s : State) :
    (modClock f s).store = s.store := rfl
@[simp] theorem modClock_port (f : Clock → Clock) (s : State) :
    (modClock f s).port = s.port := rfl
@[simp] theorem modClock_outputs (f : Clock → Clock) (s : State) :
    (modClock f s).outputs = s.outputs := rfl
@[simp] theorem modClock_pending (f : Clock → Clock) (s : State) :
    (modClock f s).pending = s.pending := rfl

@[simp] theorem modLink_clock (l : Link) (f : LinkIf → LinkIf) (s : State) :
    (modLink l f s).clock = s.clock := rfl
@[simp] theorem modLink_links (l : Link) (f : LinkIf → LinkIf) (s : State) :
    (modLink l f s).links = s.links.modify l f := rfl
@[simp] theorem modLink_streams (l : Link) (f : LinkIf → LinkIf) (s : State) :
    (modLink l f s).streams = s.streams := rfl
@[simp] theorem modLink_admission (l : Link) (f : LinkIf → LinkIf) (s : State) :
    (modLink l f s).admission = s.admission := rfl
@[simp] theorem modLink_queues (l : Link) (f : LinkIf → LinkIf) (s : State) :
    (modLink l f s).queues = s.queues := rfl
@[simp] theorem modLink_selectors (l : Link) (f : LinkIf → LinkIf) (s : State) :
    (modLink l f s).selectors = s.selectors := rfl
@[simp] theorem modLink_scheds (l : Link) (f : LinkIf → LinkIf) (s : State) :
    (modLink l f s).scheds = s.scheds := rfl
@[simp] theorem modLink_engines (l : Link) (f : LinkIf → LinkIf) (s : State) :
    (modLink l f s).engines = s.engines := rfl
@[simp] theorem modLink_staging (l : Link) (f : LinkIf → LinkIf) (s : State) :
    (modLink l f s).staging = s.staging := rfl
@[simp] theorem modLink_uplink (l : Link) (f : LinkIf → LinkIf) (s : State) :
    (modLink l f s).uplink = s.uplink := rfl
@[simp] theorem modLink_channels (l : Link) (f : LinkIf → LinkIf) (s : State) :
    (modLink l f s).channels = s.channels := rfl
@[simp] theorem modLink_traps (l : Link) (f : LinkIf → LinkIf) (s : State) :
    (modLink l f s).traps = s.traps := rfl
@[simp] theorem modLink_store (l : Link) (f : LinkIf → LinkIf) (s : State) :
    (modLink l f s).store = s.store := rfl
@[simp] theorem modLink_port (l : Link) (f : LinkIf → LinkIf) (s : State) :
    (modLink l f s).port = s.port := rfl
@[simp] theorem modLink_outputs (l : Link) (f : LinkIf → LinkIf) (s : State) :
    (modLink l f s).outputs = s.outputs := rfl
@[simp] theorem modLink_pending (l : Link) (f : LinkIf → LinkIf) (s : State) :
    (modLink l f s).pending = s.pending := rfl

@[simp] theorem modStream_clock (i : Slot) (f : StreamRec → StreamRec) (s : State) :
    (modStream i f s).clock = s.clock := rfl
@[simp] theorem modStream_links (i : Slot) (f : StreamRec → StreamRec) (s : State) :
    (modStream i f s).links = s.links := rfl
@[simp] theorem modStream_streams (i : Slot) (f : StreamRec → StreamRec) (s : State) :
    (modStream i f s).streams = updAt s.streams i f := rfl
@[simp] theorem modStream_admission (i : Slot) (f : StreamRec → StreamRec) (s : State) :
    (modStream i f s).admission = s.admission := rfl
@[simp] theorem modStream_queues (i : Slot) (f : StreamRec → StreamRec) (s : State) :
    (modStream i f s).queues = s.queues := rfl
@[simp] theorem modStream_selectors (i : Slot) (f : StreamRec → StreamRec) (s : State) :
    (modStream i f s).selectors = s.selectors := rfl
@[simp] theorem modStream_scheds (i : Slot) (f : StreamRec → StreamRec) (s : State) :
    (modStream i f s).scheds = s.scheds := rfl
@[simp] theorem modStream_engines (i : Slot) (f : StreamRec → StreamRec) (s : State) :
    (modStream i f s).engines = s.engines := rfl
@[simp] theorem modStream_staging (i : Slot) (f : StreamRec → StreamRec) (s : State) :
    (modStream i f s).staging = s.staging := rfl
@[simp] theorem modStream_uplink (i : Slot) (f : StreamRec → StreamRec) (s : State) :
    (modStream i f s).uplink = s.uplink := rfl
@[simp] theorem modStream_channels (i : Slot) (f : StreamRec → StreamRec) (s : State) :
    (modStream i f s).channels = s.channels := rfl
@[simp] theorem modStream_traps (i : Slot) (f : StreamRec → StreamRec) (s : State) :
    (modStream i f s).traps = s.traps := rfl
@[simp] theorem modStream_store (i : Slot) (f : StreamRec → StreamRec) (s : State) :
    (modStream i f s).store = s.store := rfl
@[simp] theorem modStream_port (i : Slot) (f : StreamRec → StreamRec) (s : State) :
    (modStream i f s).port = s.port := rfl
@[simp] theorem modStream_outputs (i : Slot) (f : StreamRec → StreamRec) (s : State) :
    (modStream i f s).outputs = s.outputs := rfl
@[simp] theorem modStream_pending (i : Slot) (f : StreamRec → StreamRec) (s : State) :
    (modStream i f s).pending = s.pending := rfl

@[simp] theorem modQueue_clock (l : Link) (i : Slot) (f : List FrameRecord → List FrameRecord) (s : State) :
    (modQueue l i f s).clock = s.clock := rfl
@[simp] theorem modQueue_links (l : Link) (i : Slot) (f : List FrameRecord → List FrameRecord) (s : State) :
    (modQueue l i f s).links = s.links := rfl
@[simp] theorem modQueue_streams (l : Link) (i : Slot) (f : List FrameRecord → List FrameRecord) (s : State) :
    (modQueue l i f s).streams = s.streams := rfl
@[simp] theorem modQueue_admission (l : Link) (i : Slot) (f : List FrameRecord → List FrameRecord) (s : State) :
    (modQueue l i f s).admission = s.admission := rfl
@[simp] theorem modQueue_queues (l : Link) (i : Slot) (f : List FrameRecord → List FrameRecord) (s : State) :
    (modQueue l i f s).queues = s.queues.modify l fun q => updAt q i f := rfl
@[simp] theorem modQueue_selectors (l : Link) (i : Slot) (f : List FrameRecord → List FrameRecord) (s : State) :
    (modQueue l i f s).selectors = s.selectors := rfl
@[simp] theorem modQueue_scheds (l : Link) (i : Slot) (f : List FrameRecord → List FrameRecord) (s : State) :
    (modQueue l i f s).scheds = s.scheds := rfl
@[simp] theorem modQueue_engines (l : Link) (i : Slot) (f : List FrameRecord → List FrameRecord) (s : State) :
    (modQueue l i f s).engines = s.engines := rfl
@[simp] theorem modQueue_staging (l : Link) (i : Slot) (f : List FrameRecord → List FrameRecord) (s : State) :
    (modQueue l i f s).staging = s.staging := rfl
@[simp] theorem modQueue_uplink (l : Link) (i : Slot) (f : List FrameRecord → List FrameRecord) (s : State) :
    (modQueue l i f s).uplink = s.uplink := rfl
@[simp] theorem modQueue_channels (l : Link) (i : Slot) (f : List FrameRecord → List FrameRecord) (s : State) :
    (modQueue l i f s).channels = s.channels := rfl
@[simp] theorem modQueue_traps (l : Link) (i : Slot) (f : List FrameRecord → List FrameRecord) (s : State) :
    (modQueue l i f s).traps = s.traps := rfl
@[simp] theorem modQueue_store (l : Link) (i : Slot) (f : List FrameRecord → List FrameRecord) (s : State) :
    (modQueue l i f s).store = s.store := rfl
@[simp] theorem modQueue_port (l : Link) (i : Slot) (f : List FrameRecord → List FrameRecord) (s : State) :
    (modQueue l i f s).port = s.port := rfl
@[simp] theorem modQueue_outputs (l : Link) (i : Slot) (f : List FrameRecord → List FrameRecord) (s : State) :
    (modQueue l i f s).outputs = s.outputs := rfl
@[simp] theorem modQueue_pending (l : Link) (i : Slot) (f : List FrameRecord → List FrameRecord) (s : State) :
    (modQueue l i f s).pending = s.pending := rfl

@[simp] theorem modSelector_clock (i : Slot) (f : Selector → Selector) (s : State) :
    (modSelector i f s).clock = s.clock := rfl
@[simp] theorem modSelector_links (i : Slot) (f : Selector → Selector) (s : State) :
    (modSelector i f s).links = s.links := rfl
@[simp] theorem modSelector_streams (i : Slot) (f : Selector → Selector) (s : State) :
    (modSelector i f s).streams = s.streams := rfl
@[simp] theorem modSelector_admission (i : Slot) (f : Selector → Selector) (s : State) :
    (modSelector i f s).admission = s.admission := rfl
@[simp] theorem modSelector_queues (i : Slot) (f : Selector → Selector) (s : State) :
    (modSelector i f s).queues = s.queues := rfl
@[simp] theorem modSelector_selectors (i : Slot) (f : Selector → Selector) (s : State) :
    (modSelector i f s).selectors = updAt s.selectors i f := rfl
@[simp] theorem modSelector_scheds (i : Slot) (f : Selector → Selector) (s : State) :
    (modSelector i f s).scheds = s.scheds := rfl
@[simp] theorem modSelector_engines (i : Slot) (f : Selector → Selector) (s : State) :
    (modSelector i f s).engines = s.engines := rfl
@[simp] theorem modSelector_staging (i : Slot) (f : Selector → Selector) (s : State) :
    (modSelector i f s).staging = s.staging := rfl
@[simp] theorem modSelector_uplink (i : Slot) (f : Selector → Selector) (s : State) :
    (modSelector i f s).uplink = s.uplink := rfl
@[simp] theorem modSelector_channels (i : Slot) (f : Selector → Selector) (s : State) :
    (modSelector i f s).channels = s.channels := rfl
@[simp] theorem modSelector_traps (i : Slot) (f : Selector → Selector) (s : State) :
    (modSelector i f s).traps = s.traps := rfl
@[simp] theorem modSelector_store (i : Slot) (f : Selector → Selector) (s : State) :
    (modSelector i f s).store = s.store := rfl
@[simp] theorem modSelector_port (i : Slot) (f : Selector → Selector) (s : State) :
    (modSelector i f s).port = s.port := rfl
@[simp] theorem modSelector_outputs (i : Slot) (f : Selector → Selector) (s : State) :
    (modSelector i f s).outputs = s.outputs := rfl
@[simp] theorem modSelector_pending (i : Slot) (f : Selector → Selector) (s : State) :
    (modSelector i f s).pending = s.pending := rfl

@[simp] theorem modSched_clock (i : Slot) (f : Sched → Sched) (s : State) :
    (modSched i f s).clock = s.clock := rfl
@[simp] theorem modSched_links (i : Slot) (f : Sched → Sched) (s : State) :
    (modSched i f s).links = s.links := rfl
@[simp] theorem modSched_streams (i : Slot) (f : Sched → Sched) (s : State) :
    (modSched i f s).streams = s.streams := rfl
@[simp] theorem modSched_admission (i : Slot) (f : Sched → Sched) (s : State) :
    (modSched i f s).admission = s.admission := rfl
@[simp] theorem modSched_queues (i : Slot) (f : Sched → Sched) (s : State) :
    (modSched i f s).queues = s.queues := rfl
@[simp] theorem modSched_selectors (i : Slot) (f : Sched → Sched) (s : State) :
    (modSched i f s).selectors = s.selectors := rfl
@[simp] theorem modSched_scheds (i : Slot) (f : Sched → Sched) (s : State) :
    (modSched i f s).scheds = updAt s.scheds i f := rfl
@[simp] theorem modSched_engines (i : Slot) (f : Sched → Sched) (s : State) :
    (modSched i f s).engines = s.engines := rfl
@[simp] theorem modSched_staging (i : Slot) (f : Sched → Sched) (s : State) :
    (modSched i f s).staging = s.staging := rfl
@[simp] theorem modSched_uplink (i : Slot) (f : Sched → Sched) (s : State) :
    (modSched i f s).uplink = s.uplink := rfl
@[simp] theorem modSched_channels (i : Slot) (f : Sched → Sched) (s : State) :
    (modSched i f s).channels = s.channels := rfl
@[simp] theorem modSched_traps (i : Slot) (f : Sched → Sched) (s : State) :
    (modSched i f s).traps = s.traps := rfl
@[simp] theorem modSched_store (i : Slot) (f : Sched → Sched) (s : State) :
    (modSched i f s).store = s.store := rfl
@[simp] theorem modSched_port (i : Slot) (f : Sched → Sched) (s : State) :
    (modSched i f s).port = s.port := rfl
@[simp] theorem modSched_outputs (i : Slot) (f : Sched → Sched) (s : State) :
    (modSched i f s).outputs = s.outputs := rfl
@[simp] theorem modSched_pending (i : Slot) (f : Sched → Sched) (s : State) :
    (modSched i f s).pending = s.pending := rfl

@[simp] theorem modEngine_clock (l : Link) (f : FetchEngine → FetchEngine) (s : State) :
    (modEngine l f s).clock = s.clock := rfl
@[simp] theorem modEngine_links (l : Link) (f : FetchEngine → FetchEngine) (s : State) :
    (modEngine l f s).links = s.links := rfl
@[simp] theorem modEngine_streams (l : Link) (f : FetchEngine → FetchEngine) (s : State) :
    (modEngine l f s).streams = s.streams := rfl
@[simp] theorem modEngine_admission (l : Link) (f : FetchEngine → FetchEngine) (s : State) :
    (modEngine l f s).admission = s.admission := rfl
@[simp] theorem modEngine_queues (l : Link) (f : FetchEngine → FetchEngine) (s : State) :
    (modEngine l f s).queues = s.queues := rfl
@[simp] theorem modEngine_selectors (l : Link) (f : FetchEngine → FetchEngine) (s : State) :
    (modEngine l f s).selectors = s.selectors := rfl
@[simp] theorem modEngine_scheds (l : Link) (f : FetchEngine → FetchEngine) (s : State) :
    (modEngine l f s).scheds = s.scheds := rfl
@[simp] theorem modEngine_engines (l : Link) (f : FetchEngine → FetchEngine) (s : State) :
    (modEngine l f s).engines = s.engines.modify l f := rfl
@[simp] theorem modEngine_staging (l : Link) (f : FetchEngine → FetchEngine) (s : State) :
    (modEngine l f s).staging = s.staging := rfl
@[simp] theorem modEngine_uplink (l : Link) (f : FetchEngine → FetchEngine) (s : State) :
    (modEngine l f s).uplink = s.uplink := rfl
@[simp] theorem modEngine_channels (l : Link) (f : FetchEngine → FetchEngine) (s : State) :
    (modEngine l f s).channels = s.channels := rfl
@[simp] theorem modEngine_traps (l : Link) (f : FetchEngine → FetchEngine) (s : State) :
    (modEngine l f s).traps = s.traps := rfl
@[simp] theorem modEngine_store (l : Link) (f : FetchEngine → FetchEngine) (s : State) :
    (modEngine l f s).store = s.store := rfl
@[simp] theorem modEngine_port (l : Link) (f : FetchEngine → FetchEngine) (s : State) :
    (modEngine l f s).port = s.port := rfl
@[simp] theorem modEngine_outputs (l : Link) (f : FetchEngine → FetchEngine) (s : State) :
    (modEngine l f s).outputs = s.outputs := rfl
@[simp] theorem modEngine_pending (l : Link) (f : FetchEngine → FetchEngine) (s : State) :
    (modEngine l f s).pending = s.pending := rfl

@[simp] theorem modStaging_clock (f : Staging → Staging) (s : State) :
    (modStaging f s).clock = s.clock := rfl
@[simp] theorem modStaging_links (f : Staging → Staging) (s : State) :
    (modStaging f s).links = s.links := rfl
@[simp] theorem modStaging_streams (f : Staging → Staging) (s : State) :
    (modStaging f s).streams = s.streams := rfl
@[simp] theorem modStaging_admission (f : Staging → Staging) (s : State) :
    (modStaging f s).admission = s.admission := rfl
@[simp] theorem modStaging_queues (f : Staging → Staging) (s : State) :
    (modStaging f s).queues = s.queues := rfl
@[simp] theorem modStaging_selectors (f : Staging → Staging) (s : State) :
    (modStaging f s).selectors = s.selectors := rfl
@[simp] theorem modStaging_scheds (f : Staging → Staging) (s : State) :
    (modStaging f s).scheds = s.scheds := rfl
@[simp] theorem modStaging_engines (f : Staging → Staging) (s : State) :
    (modStaging f s).engines = s.engines := rfl
@[simp] theorem modStaging_staging (f : Staging → Staging) (s : State) :
    (modStaging f s).staging = f s.staging := rfl
@[simp] theorem modStaging_uplink (f : Staging → Staging) (s : State) :
    (modStaging f s).uplink = s.uplink := rfl
@[simp] theorem modStaging_channels (f : Staging → Staging) (s : State) :
    (modStaging f s).channels = s.channels := rfl
@[simp] theorem modStaging_traps (f : Staging → Staging) (s : State) :
    (modStaging f s).traps = s.traps := rfl
@[simp] theorem modStaging_store (f : Staging → Staging) (s : State) :
    (modStaging f s).store = s.store := rfl
@[simp] theorem modStaging_port (f : Staging → Staging) (s : State) :
    (modStaging f s).port = s.port := rfl
@[simp] theorem modStaging_outputs (f : Staging → Staging) (s : State) :
    (modStaging f s).outputs = s.outputs := rfl
@[simp] theorem modStaging_pending (f : Staging → Staging) (s : State) :
    (modStaging f s).pending = s.pending := rfl

@[simp] theorem modUplink_clock (f : Uplink → Uplink) (s : State) :
    (modUplink f s).clock = s.clock := rfl
@[simp] theorem modUplink_links (f : Uplink → Uplink) (s : State) :
    (modUplink f s).links = s.links := rfl
@[simp] theorem modUplink_streams (f : Uplink → Uplink) (s : State) :
    (modUplink f s).streams = s.streams := rfl
@[simp] theorem modUplink_admission (f : Uplink → Uplink) (s : State) :
    (modUplink f s).admission = s.admission := rfl
@[simp] theorem modUplink_queues (f : Uplink → Uplink) (s : State) :
    (modUplink f s).queues = s.queues := rfl
@[simp] theorem modUplink_selectors (f : Uplink → Uplink) (s : State) :
    (modUplink f s).selectors = s.selectors := rfl
@[simp] theorem modUplink_scheds (f : Uplink → Uplink) (s : State) :
    (modUplink f s).scheds = s.scheds := rfl
@[simp] theorem modUplink_engines (f : Uplink → Uplink) (s : State) :
    (modUplink f s).engines = s.engines := rfl
@[simp] theorem modUplink_staging (f : Uplink → Uplink) (s : State) :
    (modUplink f s).staging = s.staging := rfl
@[simp] theorem modUplink_uplink (f : Uplink → Uplink) (s : State) :
    (modUplink f s).uplink = f s.uplink := rfl
@[simp] theorem modUplink_channels (f : Uplink → Uplink) (s : State) :
    (modUplink f s).channels = s.channels := rfl
@[simp] theorem modUplink_traps (f : Uplink → Uplink) (s : State) :
    (modUplink f s).traps = s.traps := rfl
@[simp] theorem modUplink_store (f : Uplink → Uplink) (s : State) :
    (modUplink f s).store = s.store := rfl
@[simp] theorem modUplink_port (f : Uplink → Uplink) (s : State) :
    (modUplink f s).port = s.port := rfl
@[simp] theorem modUplink_outputs (f : Uplink → Uplink) (s : State) :
    (modUplink f s).outputs = s.outputs := rfl
@[simp] theorem modUplink_pending (f : Uplink → Uplink) (s : State) :
    (modUplink f s).pending = s.pending := rfl

@[simp] theorem modChannel_clock (c : Chan) (f : Channel → Channel) (s : State) :
    (modChannel c f s).clock = s.clock := rfl
@[simp] theorem modChannel_links (c : Chan) (f : Channel → Channel) (s : State) :
    (modChannel c f s).links = s.links := rfl
@[simp] theorem modChannel_streams (c : Chan) (f : Channel → Channel) (s : State) :
    (modChannel c f s).streams = s.streams := rfl
@[simp] theorem modChannel_admission (c : Chan) (f : Channel → Channel) (s : State) :
    (modChannel c f s).admission = s.admission := rfl
@[simp] theorem modChannel_queues (c : Chan) (f : Channel → Channel) (s : State) :
    (modChannel c f s).queues = s.queues := rfl
@[simp] theorem modChannel_selectors (c : Chan) (f : Channel → Channel) (s : State) :
    (modChannel c f s).selectors = s.selectors := rfl
@[simp] theorem modChannel_scheds (c : Chan) (f : Channel → Channel) (s : State) :
    (modChannel c f s).scheds = s.scheds := rfl
@[simp] theorem modChannel_engines (c : Chan) (f : Channel → Channel) (s : State) :
    (modChannel c f s).engines = s.engines := rfl
@[simp] theorem modChannel_staging (c : Chan) (f : Channel → Channel) (s : State) :
    (modChannel c f s).staging = s.staging := rfl
@[simp] theorem modChannel_uplink (c : Chan) (f : Channel → Channel) (s : State) :
    (modChannel c f s).uplink = s.uplink := rfl
@[simp] theorem modChannel_channels (c : Chan) (f : Channel → Channel) (s : State) :
    (modChannel c f s).channels = updAt s.channels c f := rfl
@[simp] theorem modChannel_traps (c : Chan) (f : Channel → Channel) (s : State) :
    (modChannel c f s).traps = s.traps := rfl
@[simp] theorem modChannel_store (c : Chan) (f : Channel → Channel) (s : State) :
    (modChannel c f s).store = s.store := rfl
@[simp] theorem modChannel_port (c : Chan) (f : Channel → Channel) (s : State) :
    (modChannel c f s).port = s.port := rfl
@[simp] theorem modChannel_outputs (c : Chan) (f : Channel → Channel) (s : State) :
    (modChannel c f s).outputs = s.outputs := rfl
@[simp] theorem modChannel_pending (c : Chan) (f : Channel → Channel) (s : State) :
    (modChannel c f s).pending = s.pending := rfl

@[simp] theorem modTraps_clock (f : Traps → Traps) (s : State) :
    (modTraps f s).clock = s.clock := rfl
@[simp] theorem modTraps_links (f : Traps → Traps) (s : State) :
    (modTraps f s).links = s.links := rfl
@[simp] theorem modTraps_streams (f : Traps → Traps) (s : State) :
    (modTraps f s).streams = s.streams := rfl
@[simp] theorem modTraps_admission (f : Traps → Traps) (s : State) :
    (modTraps f s).admission = s.admission := rfl
@[simp] theorem modTraps_queues (f : Traps → Traps) (s : State) :
    (modTraps f s).queues = s.queues := rfl
@[simp] theorem modTraps_selectors (f : Traps → Traps) (s : State) :
    (modTraps f s).selectors = s.selectors := rfl
@[simp] theorem modTraps_scheds (f : Traps → Traps) (s : State) :
    (modTraps f s).scheds = s.scheds := rfl
@[simp] theorem modTraps_engines (f : Traps → Traps) (s : State) :
    (modTraps f s).engines = s.engines := rfl
@[simp] theorem modTraps_staging (f : Traps → Traps) (s : State) :
    (modTraps f s).staging = s.staging := rfl
@[simp] theorem modTraps_uplink (f : Traps → Traps) (s : State) :
    (modTraps f s).uplink = s.uplink := rfl
@[simp] theorem modTraps_channels (f : Traps → Traps) (s : State) :
    (modTraps f s).channels = s.channels := rfl
@[simp] theorem modTraps_traps (f : Traps → Traps) (s : State) :
    (modTraps f s).traps = f s.traps := rfl
@[simp] theorem modTraps_store (f : Traps → Traps) (s : State) :
    (modTraps f s).store = s.store := rfl
@[simp] theorem modTraps_port (f : Traps → Traps) (s : State) :
    (modTraps f s).port = s.port := rfl
@[simp] theorem modTraps_outputs (f : Traps → Traps) (s : State) :
    (modTraps f s).outputs = s.outputs := rfl
@[simp] theorem modTraps_pending (f : Traps → Traps) (s : State) :
    (modTraps f s).pending = s.pending := rfl

@[simp] theorem modStore_clock (f : Store → Store) (s : State) :
    (modStore f s).clock = s.clock := rfl
@[simp] theorem modStore_links (f : Store → Store) (s : State) :
    (modStore f s).links = s.links := rfl
@[simp] theorem modStore_streams (f : Store → Store) (s : State) :
    (modStore f s).streams = s.streams := rfl
@[simp] theorem modStore_admission (f : Store → Store) (s : State) :
    (modStore f s).admission = s.admission := rfl
@[simp] theorem modStore_queues (f : Store → Store) (s : State) :
    (modStore f s).queues = s.queues := rfl
@[simp] theorem modStore_selectors (f : Store → Store) (s : State) :
    (modStore f s).selectors = s.selectors := rfl
@[simp] theorem modStore_scheds (f : Store → Store) (s : State) :
    (modStore f s).scheds = s.scheds := rfl
@[simp] theorem modStore_engines (f : Store → Store) (s : State) :
    (modStore f s).engines = s.engines := rfl
@[simp] theorem modStore_staging (f : Store → Store) (s : State) :
    (modStore f s).staging = s.staging := rfl
@[simp] theorem modStore_uplink (f : Store → Store) (s : State) :
    (modStore f s).uplink = s.uplink := rfl
@[simp] theorem modStore_channels (f : Store → Store) (s : State) :
    (modStore f s).channels = s.channels := rfl
@[simp] theorem modStore_traps (f : Store → Store) (s : State) :
    (modStore f s).traps = s.traps := rfl
@[simp] theorem modStore_store (f : Store → Store) (s : State) :
    (modStore f s).store = f s.store := rfl
@[simp] theorem modStore_port (f : Store → Store) (s : State) :
    (modStore f s).port = s.port := rfl
@[simp] theorem modStore_outputs (f : Store → Store) (s : State) :
    (modStore f s).outputs = s.outputs := rfl
@[simp] theorem modStore_pending (f : Store → Store) (s : State) :
    (modStore f s).pending = s.pending := rfl

@[simp] theorem modPort_clock (f : Port → Port) (s : State) :
    (modPort f s).clock = s.clock := rfl
@[simp] theorem modPort_links (f : Port → Port) (s : State) :
    (modPort f s).links = s.links := rfl
@[simp] theorem modPort_streams (f : Port → Port) (s : State) :
    (modPort f s).streams = s.streams := rfl
@[simp] theorem modPort_admission (f : Port → Port) (s : State) :
    (modPort f s).admission = s.admission := rfl
@[simp] theorem modPort_queues (f : Port → Port) (s : State) :
    (modPort f s).queues = s.queues := rfl
@[simp] theorem modPort_selectors (f : Port → Port) (s : State) :
    (modPort f s).selectors = s.selectors := rfl
@[simp] theorem modPort_scheds (f : Port → Port) (s : State) :
    (modPort f s).scheds = s.scheds := rfl
@[simp] theorem modPort_engines (f : Port → Port) (s : State) :
    (modPort f s).engines = s.engines := rfl
@[simp] theorem modPort_staging (f : Port → Port) (s : State) :
    (modPort f s).staging = s.staging := rfl
@[simp] theorem modPort_uplink (f : Port → Port) (s : State) :
    (modPort f s).uplink = s.uplink := rfl
@[simp] theorem modPort_channels (f : Port → Port) (s : State) :
    (modPort f s).channels = s.channels := rfl
@[simp] theorem modPort_traps (f : Port → Port) (s : State) :
    (modPort f s).traps = s.traps := rfl
@[simp] theorem modPort_store (f : Port → Port) (s : State) :
    (modPort f s).store = s.store := rfl
@[simp] theorem modPort_port (f : Port → Port) (s : State) :
    (modPort f s).port = f s.port := rfl
@[simp] theorem modPort_outputs (f : Port → Port) (s : State) :
    (modPort f s).outputs = s.outputs := rfl
@[simp] theorem modPort_pending (f : Port → Port) (s : State) :
    (modPort f s).pending = s.pending := rfl

@[simp] theorem setAdmission_clock (a : Admission) (s : State) :
    (setAdmission a s).clock = s.clock := rfl
@[simp] theorem setAdmission_links (a : Admission) (s : State) :
    (setAdmission a s).links = s.links := rfl
@[simp] theorem setAdmission_streams (a : Admission) (s : State) :
    (setAdmission a s).streams = s.streams := rfl
@[simp] theorem setAdmission_admission (a : Admission) (s : State) :
    (setAdmission a s).admission = a := rfl
@[simp] theorem setAdmission_queues (a : Admission) (s : State) :
    (setAdmission a s).queues = s.queues := rfl
@[simp] theorem setAdmission_selectors (a : Admission) (s : State) :
    (setAdmission a s).selectors = s.selectors := rfl
@[simp] theorem setAdmission_scheds (a : Admission) (s : State) :
    (setAdmission a s).scheds = s.scheds := rfl
@[simp] theorem setAdmission_engines (a : Admission) (s : State) :
    (setAdmission a s).engines = s.engines := rfl
@[simp] theorem setAdmission_staging (a : Admission) (s : State) :
    (setAdmission a s).staging = s.staging := rfl
@[simp] theorem setAdmission_uplink (a : Admission) (s : State) :
    (setAdmission a s).uplink = s.uplink := rfl
@[simp] theorem setAdmission_channels (a : Admission) (s : State) :
    (setAdmission a s).channels = s.channels := rfl
@[simp] theorem setAdmission_traps (a : Admission) (s : State) :
    (setAdmission a s).traps = s.traps := rfl
@[simp] theorem setAdmission_store (a : Admission) (s : State) :
    (setAdmission a s).store = s.store := rfl
@[simp] theorem setAdmission_port (a : Admission) (s : State) :
    (setAdmission a s).port = s.port := rfl
@[simp] theorem setAdmission_outputs (a : Admission) (s : State) :
    (setAdmission a s).outputs = s.outputs := rfl
@[simp] theorem setAdmission_pending (a : Admission) (s : State) :
    (setAdmission a s).pending = s.pending := rfl

@[simp] theorem emit_clock (o : Output) (s : State) :
    (emit o s).clock = s.clock := rfl
@[simp] theorem emit_links (o : Output) (s : State) :
    (emit o s).links = s.links := rfl
@[simp] theorem emit_streams (o : Output) (s : State) :
    (emit o s).streams = s.streams := rfl
@[simp] theorem emit_admission (o : Output) (s : State) :
    (emit o s).admission = s.admission := rfl
@[simp] theorem emit_queues (o : Output) (s : State) :
    (emit o s).queues = s.queues := rfl
@[simp] theorem emit_selectors (o : Output) (s : State) :
    (emit o s).selectors = s.selectors := rfl
@[simp] theorem emit_scheds (o : Output) (s : State) :
    (emit o s).scheds = s.scheds := rfl
@[simp] theorem emit_engines (o : Output) (s : State) :
    (emit o s).engines = s.engines := rfl
@[simp] theorem emit_staging (o : Output) (s : State) :
    (emit o s).staging = s.staging := rfl
@[simp] theorem emit_uplink (o : Output) (s : State) :
    (emit o s).uplink = s.uplink := rfl
@[simp] theorem emit_channels (o : Output) (s : State) :
    (emit o s).channels = s.channels := rfl
@[simp] theorem emit_traps (o : Output) (s : State) :
    (emit o s).traps = s.traps := rfl
@[simp] theorem emit_store (o : Output) (s : State) :
    (emit o s).store = s.store := rfl
@[simp] theorem emit_port (o : Output) (s : State) :
    (emit o s).port = s.port := rfl
@[simp] theorem emit_outputs (o : Output) (s : State) :
    (emit o s).outputs = s.outputs ++ [o] := rfl
@[simp] theorem emit_pending (o : Output) (s : State) :
    (emit o s).pending = s.pending := rfl

end Sys2Proof.Machine
end

