-- ==== Sys2Proof/Laws/Steady.lean ====
section
/-!
SUPPORT. What the shared operations never touch, said once: clock, store, port, waiting commands, staging bytes, a
link's state, geometry and windows, everything of a DOWN link, an idle fetch engine, a channel's configuration and hold;
credit does not rise, queues do not grow, a slot keeps its members or closes, no trap is cleared, nothing that has
been put out is taken back.
-/

namespace Sys2Proof.Machine

/-- Of a link interface, only completion tail, interrupt, lost count, request head and request in progress moved. -/
def RingsMoved (k k' : LinkIf) : Prop :=
  k' = { k with cplTail := k'.cplTail, irq := k'.irq, lost := k'.lost, reqHead := k'.reqHead, request := k'.request }

/-- A slot kept its state and members, or is CLOSED without members. -/
def MembersKept (r r' : StreamRec) : Prop :=
  (r'.state = .closed ∧ r'.owner = none ∧ r'.standby = none)
    ∨ (r'.state = r.state ∧ r'.owner = r.owner ∧ r'.standby = r.standby)

/-- A channel kept its configuration, hold and last sequence, and its queue and blocks did not grow. -/
structure ChannelShrunk (ch ch' : Channel) : Prop where
  config : ch'.config = ch.config
  hold : ch'.hold = ch.hold
  lastSeq : ch'.lastSeq = ch.lastSeq
  queue : ch'.queue.length ≤ ch.queue.length
  blocks : ch'.blocks.length ≤ ch.blocks.length
  posted : ∀ x ∈ ch'.queue, ∃ y ∈ ch.queue, x.link = y.link

/-- A fetch engine has no job, no outstanding attempt and no waiting retry. -/
def EngineIdle (e : FetchEngine) : Prop := e.jobs = [] ∧ e.outstanding = [] ∧ e.retry = []

/-- No trap of the one is clear in the other. -/
def TrapsKept (u v : Traps) : Prop :=
  (∀ n, u.device.getLsbD n = true → v.device.getLsbD n = true)
    ∧ ∀ (i : Slot) n, u.stream[i].getLsbD n = true → v.stream[i].getLsbD n = true

/-- What no shared operation of the blocks touches. -/
structure Steady (s t : State) : Prop where
  clock : t.clock = s.clock
  store : t.store = s.store
  port : t.port = s.port
  pending : t.pending = s.pending
  mem : t.staging.mem = s.staging.mem
  portRate : t.uplink.portRate = s.uplink.portRate
  credit : t.uplink.credit ≤ s.uplink.credit
  links : ∀ l, RingsMoved (s.links.get l) (t.links.get l)
  down : ∀ l, (s.links.get l).up = false → t.links.get l = s.links.get l
  idle : ∀ l, EngineIdle (s.engines.get l) → EngineIdle (t.engines.get l)
  queues : ∀ l i, (queueOf t l i).Sublist (queueOf s l i)
  members : ∀ i : Slot, MembersKept s.streams[i] t.streams[i]
  chans : ∀ c : Chan, ChannelShrunk s.channels[c] t.channels[c]
  traps : TrapsKept s.traps t.traps
  outs : s.outputs <+: t.outputs

/-! ## Composition -/

theorem RingsMoved.refl (k : LinkIf) : RingsMoved k k := rfl

theorem RingsMoved.trans {a b c : LinkIf} (h : RingsMoved a b) (g : RingsMoved b c) : RingsMoved a c := by
  unfold RingsMoved at *
  rw [g, h]

theorem RingsMoved.up {k k' : LinkIf} (h : RingsMoved k k') : k'.up = k.up := by
  unfold RingsMoved at h; rw [h]

theorem MembersKept.refl (r : StreamRec) : MembersKept r r := .inr ⟨rfl, rfl, rfl⟩

theorem MembersKept.trans {a b c : StreamRec} (h : MembersKept a b) (g : MembersKept b c) : MembersKept a c := by
  rcases g with g | ⟨g1, g2, g3⟩
  · exact .inl g
  · rcases h with ⟨h1, h2, h3⟩ | ⟨h1, h2, h3⟩
    · exact .inl ⟨g1.trans h1, g2.trans h2, g3.trans h3⟩
    · exact .inr ⟨g1.trans h1, g2.trans h2, g3.trans h3⟩

theorem ChannelShrunk.refl (ch : Channel) : ChannelShrunk ch ch :=
  ⟨rfl, rfl, rfl, le_rfl, le_rfl, fun x hx => ⟨x, hx, rfl⟩⟩

theorem ChannelShrunk.trans {a b c : Channel} (h : ChannelShrunk a b) (g : ChannelShrunk b c) : ChannelShrunk a c :=
  ⟨g.config.trans h.config, g.hold.trans h.hold, g.lastSeq.trans h.lastSeq, g.queue.trans h.queue,
    g.blocks.trans h.blocks, fun x hx => by
      obtain ⟨y, hy, e⟩ := g.posted x hx
      obtain ⟨z, hz, e'⟩ := h.posted y hy
      exact ⟨z, hz, e.trans e'⟩⟩

theorem TrapsKept.refl (u : Traps) : TrapsKept u u := ⟨fun _ h => h, fun _ _ h => h⟩

theorem TrapsKept.trans {a b c : Traps} (h : TrapsKept a b) (g : TrapsKept b c) : TrapsKept a c :=
  ⟨fun n x => g.1 n (h.1 n x), fun i n x => g.2 i n (h.2 i n x)⟩

/-- An update that keeps both words of traps keeps the traps. -/
theorem TrapsKept.of_eq {u v : Traps} (hd : v.device = u.device) (hs : v.stream = u.stream) : TrapsKept u v :=
  ⟨fun _ h => by rw [hd]; exact h, fun _ _ h => by rw [hs]; exact h⟩

namespace Steady

theorem refl (s : State) : Steady s s :=
  ⟨rfl, rfl, rfl, rfl, rfl, rfl, le_rfl, fun _ => RingsMoved.refl _, fun _ _ => rfl, fun _ h => h,
    fun _ _ => List.Sublist.refl _, fun _ => MembersKept.refl _, fun _ => ChannelShrunk.refl _, TrapsKept.refl _,
    List.prefix_rfl⟩

theorem trans {s t u : State} (h : Steady s t) (g : Steady t u) : Steady s u :=
  ⟨g.clock.trans h.clock, g.store.trans h.store, g.port.trans h.port, g.pending.trans h.pending, g.mem.trans h.mem,
    g.portRate.trans h.portRate, g.credit.trans h.credit, fun l => (h.links l).trans (g.links l),
    fun l d => (g.down l (by rw [h.down l d]; exact d)).trans (h.down l d), fun l x => g.idle l (h.idle l x),
    fun l i => (g.queues l i).trans (h.queues l i), fun i => (h.members i).trans (g.members i),
    fun c => (h.chans c).trans (g.chans c), h.traps.trans g.traps, h.outs.trans g.outs⟩

theorem foldl {α : Type} {f : State → α → State} (hf : ∀ s a, Steady s (f s a)) {s : State} :
    ∀ (as : List α) {t : State}, Steady s t → Steady s (as.foldl f t)
  | [], _, h => h
  | a :: as, _, h => foldl hf as (h.trans (hf _ a))

variable {s t : State}

theorem up (h : Steady s t) (l : Link) : (t.links.get l).up = (s.links.get l).up := (h.links l).up

theorem windows (h : Steady s t) (l : Link) : (t.links.get l).windows = (s.links.get l).windows := by
  have g := h.links l
  unfold RingsMoved at g; rw [g]

/-- A set device trap stays set. -/
theorem deviceTrap (h : Steady s t) {d : DeviceTrap} (g : deviceTrapSet s d = true) : deviceTrapSet t d = true :=
  h.traps.1 _ g

/-- A set per-stream trap stays set. -/
theorem streamTrap (h : Steady s t) {i : Slot} {d : StreamTrap} (g : streamTrapSet s i d = true) :
    streamTrapSet t i d = true :=
  h.traps.2 _ _ g

/-! ## Updates of one block -/

theorem emit (h : Steady s t) (o : Output) : Steady s (emit o t) :=
  { h with outs := h.outs.trans (List.prefix_append _ _) }

theorem modTraps (h : Steady s t) {f : Traps → Traps} (hf : TrapsKept t.traps (f t.traps)) : Steady s (modTraps f t) :=
  { h with traps := h.traps.trans hf }

theorem modSched (h : Steady s t) (i : Slot) (f : Sched → Sched) : Steady s (modSched i f t) := { h with }

theorem modSelector (h : Steady s t) (i : Slot) (f : Selector → Selector) : Steady s (modSelector i f t) := { h with }

theorem modEngine (h : Steady s t) (l : Link) {f : FetchEngine → FetchEngine} (hf : ∀ e, EngineIdle e → EngineIdle (f e)) :
    Steady s (modEngine l f t) :=
  { h with
    idle := fun m x => by
      have y := h.idle m x
      by_cases e : m = l
      · subst e; simpa using hf _ y
      · simpa [PerLink.get_modify_ne _ _ e] using y }

theorem setAdmission (h : Steady s t) (a : Admission) : Steady s (setAdmission a t) := { h with }

theorem modStaging (h : Steady s t) {f : Staging → Staging} (hf : (f t.staging).mem = t.staging.mem) :
    Steady s (modStaging f t) :=
  { h with mem := hf.trans h.mem }

theorem modUplink (h : Steady s t) {f : Uplink → Uplink}
    (hf : (f t.uplink).portRate = t.uplink.portRate ∧ (f t.uplink).credit ≤ t.uplink.credit) : Steady s (modUplink f t) :=
  { h with portRate := hf.1.trans h.portRate, credit := hf.2.trans h.credit }

theorem modLink (h : Steady s t) {l : Link} {f : LinkIf → LinkIf} (hf : ∀ k, RingsMoved k (f k))
    (hu : (t.links.get l).up = true) : Steady s (modLink l f t) :=
  { h with
    links := fun m => by
      by_cases e : m = l
      · subst e; simpa using (h.links m).trans (hf _)
      · simpa [PerLink.get_modify_ne _ _ e] using h.links m
    down := fun m d => by
      by_cases e : m = l
      · subst e
        rw [← h.up, hu] at d
        cases d
      · simpa [PerLink.get_modify_ne _ _ e] using h.down m d }

theorem modStream (h : Steady s t) {i : Slot} {f : StreamRec → StreamRec} (hf : MembersKept t.streams[i] (f t.streams[i])) :
    Steady s (modStream i f t) :=
  { h with
    members := fun j => by
      rw [modStream_streams, updAt_get]
      split
      · subst_vars; exact (h.members _).trans hf
      · exact h.members j }

theorem modQueue (h : Steady s t) {l : Link} {i : Slot} {f : List FrameRecord → List FrameRecord}
    (hf : (f (queueOf t l i)).Sublist (queueOf t l i)) : Steady s (modQueue l i f t) :=
  { h with
    queues := fun m j => by
      refine List.Sublist.trans ?_ (h.queues m j)
      unfold queueOf
      rw [modQueue_queues]
      by_cases e : m = l
      · subst e
        rw [PerLink.get_modify_same, updAt_get]
        split
        · subst_vars; exact hf
        · exact List.Sublist.refl _
      · rw [PerLink.get_modify_ne _ _ e] }

theorem modChannel (h : Steady s t) {c : Chan} {f : Channel → Channel} (hf : ChannelShrunk t.channels[c] (f t.channels[c])) :
    Steady s (modChannel c f t) :=
  { h with
    chans := fun d => by
      rw [modChannel_channels, updAt_get]
      split
      · subst_vars; exact (h.chans _).trans hf
      · exact h.chans d }

end Steady

end Sys2Proof.Machine
end

