-- ==== Sys2Proof/Laws/SteadyOps.lean ====
section
/-!
SUPPORT. The shared operations are steady: completions, traps, retirements, departure lists, bulk channels, the arbiter.
-/

namespace Sys2Proof.Machine

namespace Steady

variable {s t : State}

/-! ## Completions, traps, counters -/

theorem ringWrite (h : Steady s t) (l : Link) (c : Completion) (up : (t.links.get l).up = true) :
    Steady s (ringWrite l c t) := by
  have g := (h.emit (.completion l ((t.links.get l).cplBase + BitVec.ofNat 64 (32 * (t.links.get l).cplTail))
    { c with reqHead := BitVec.ofNat 16 (t.links.get l).reqHead })).modLink (l := l)
    (f := fun k => { k with cplTail := (k.cplTail + 1) % k.cplEntries.toNat }) (fun _ => rfl) up
  unfold Machine.ringWrite
  dsimp only
  split
  · exact (g.modLink (f := fun k => { k with irq := .sent }) (fun _ => rfl) (by simpa using up)).emit _
  · exact g

theorem countLost (h : Steady s t) (l : Link) (up : (t.links.get l).up = true) : Steady s (countLost l t) :=
  h.modLink (fun _ => rfl) up

theorem setDeviceBit (h : Steady s t) (d : DeviceTrap) : Steady s (setDeviceBit d t) :=
  h.modTraps ⟨fun n x => by simp [x], fun _ _ x => x⟩

theorem deliver : ∀ (n : Nat) {t : State}, Steady s t → ∀ (l : Link) (c : Completion), Steady s (deliver n l c t)
  | 0, t, h, l, c => by
    unfold Machine.deliver
    split
    next up =>
      split
      · exact h.countLost l up
      · exact h.ringWrite l c up
    · exact h
  | n + 1, t, h, l, c => by
    unfold Machine.deliver
    split
    next up =>
      split
      · dsimp only
        split
        · exact h.countLost l up
        · exact deliver n (deliver n ((h.countLost l up).setDeviceBit _) _ _) _ _
      · exact h.ringWrite l c up
    · exact h

theorem complete (h : Steady s t) (l : Link) (c : Completion) : Steady s (complete l c t) := deliver 3 h l c

theorem raiseDevice (h : Steady s t) (d : DeviceTrap) : Steady s (raiseDevice d t) := by
  unfold Machine.raiseDevice
  split
  · exact h
  · exact ((h.setDeviceBit d).complete _ _).complete _ _

theorem raiseStream (h : Steady s t) (i : Slot) (d : StreamTrap) (fn : BitVec 32) :
    Steady s (raiseStream i d fn t) := by
  unfold Machine.raiseStream
  split
  · exact h
  · have g : Steady s (Machine.modTraps (fun u => { u with
        stream := updAt u.stream i fun b => b ||| (1#8 <<< streamTrapBit d) }) t) := by
      refine h.modTraps ⟨fun _ x => x, fun j n x => ?_⟩
      simp only [updAt_get]
      split
      · subst_vars; rw [BitVec.getLsbD_or, x, Bool.true_or]
      · exact x
    split
    · exact g
    · exact foldl (fun s _ => (refl s).complete _ _) _ g

theorem count (h : Steady s t) (i : Slot) (f : StreamCounters → StreamCounters) : Steady s (count i f t) :=
  h.modTraps (.of_eq rfl rfl)

theorem countDevice (h : Steady s t) (f : DeviceCounters → DeviceCounters) : Steady s (countDevice f t) :=
  h.modTraps (.of_eq rfl rfl)

theorem respond (h : Steady s t) (l : Link) (r : Record) (st : Status) : Steady s (respond l r st t) := h.complete _ _

theorem respondFn (h : Steady s t) (l : Link) (r : Record) (st : Status) (fn : BitVec 32) :
    Steady s (respondFn l r st fn t) := h.complete _ _

theorem membershipNotice (h : Steady s t) (i : Slot) (l : Link) : Steady s (membershipNotice i l t) := h.complete _ _

theorem roleNotice (h : Steady s t) (l : Link) : Steady s (roleNotice l t) := h.complete _ _

theorem recompute (h : Steady s t) : Steady s (recompute t) := by
  unfold Machine.recompute
  simp only []
  split
  · exact (h.setAdmission _).raiseDevice _
  · exact h.setAdmission _

theorem takeBlocks (h : Steady s t) (n : Nat) : Steady s (takeBlocks n t) := h.modStaging rfl

theorem giveBlocks (h : Steady s t) (bs : List Nat) : Steady s (giveBlocks bs t) := h.modStaging rfl

theorem startRequestRead (h : Steady s t) (l : Link) (r : Option Record) (got : List Bytes) (a : BitVec 64) (n : Nat)
    (up : (t.links.get l).up = true) : Steady s (startRequestRead l r got a n t) := by
  unfold Machine.startRequestRead
  exact (h.modLink (f := fun k => { k with request := some { record := r, got := got, expiry := nowOf t + Config.readTimeoutNs } })
    (fun _ => rfl) up).emit _

theorem fetchNextRequest (h : Steady s t) (l : Link) : Steady s (fetchNextRequest l t) := by
  unfold Machine.fetchNextRequest
  simp only []
  split
  next c =>
    simp only [Bool.and_eq_true] at c
    exact h.startRequestRead _ _ _ _ _ c.1.1
  · exact h

theorem advanceHead (h : Steady s t) (l : Link) (up : (t.links.get l).up = true) : Steady s (advanceHead l t) :=
  h.modLink (fun _ => rfl) up

/-! ## Idle fetch engines -/

theorem idle_dropJob {e : FetchEngine} (x : EngineIdle e) (id : Nat) : EngineIdle (dropJob id e) := by
  obtain ⟨a, b, c⟩ := x
  simp [EngineIdle, dropJob, a, b, c]

theorem idle_sweepJobs {e : FetchEngine} (x : EngineIdle e) : EngineIdle (sweepJobs e) := by
  obtain ⟨a, b, c⟩ := x
  simp [EngineIdle, sweepJobs, a, b, c]

theorem idle_abandonWork {e : FetchEngine} (x : EngineIdle e) (w : JobWork) : EngineIdle (abandonWork w e) := by
  unfold abandonWork
  rw [x.1]
  exact x

theorem idle_pruneReads {e : FetchEngine} (x : EngineIdle e) (w : JobWork) (gone : List Nat) :
    EngineIdle (pruneReads w gone e) := by
  unfold pruneReads
  rw [x.1]
  exact x

theorem idle_abandonChannelJobs {e : FetchEngine} (x : EngineIdle e) (c : Chan) : EngineIdle (abandonChannelJobs c e) := by
  unfold abandonChannelJobs
  rw [x.1]
  exact x

/-! ## Retirement and departure lists -/

theorem retire (h : Steady s t) (i : Slot) (r : FrameRecord) (st : Status) (a b c : Nat) :
    Steady s (retire i r st a b c t) := by
  unfold Machine.retire
  simp only []
  split
  · exact (h.count _ _).complete _ _
  · exact h.count _ _

theorem retireAll (h : Steady s t) (i : Slot) (st : Status) (rs : List FrameRecord) :
    Steady s (retireAll i st rs t) := foldl (fun s _ => (refl s).retire _ _ _ _ _ _) _ h

theorem discardQueue (h : Steady s t) (l : Link) (i : Slot) : Steady s (discardQueue l i t) :=
  (h.modQueue (List.nil_sublist _)).retireAll _ _ _

theorem discardQueues (h : Steady s t) (i : Slot) : Steady s (discardQueues i t) :=
  (h.discardQueue _ _).discardQueue _ _

theorem modGroups (h : Steady s t) (i : Slot) (f : List Group → List Group) : Steady s (modGroups i f t) :=
  h.modSched _ _

theorem releaseOf (h : Steady s t) (i : Slot) (g : Group) : Steady s (releaseOf i g t) := by
  unfold Machine.releaseOf
  split
  · exact (h.giveBlocks _).modEngine _ fun _ x => idle_pruneReads x _ _
  · exact h

theorem releaseBlocks (h : Steady s t) (i : Slot) : Steady s (releaseBlocks i t) :=
  foldl (fun s _ => (refl s).releaseOf _ _) _ (h.modGroups _ _)

theorem closeSlot (h : Steady s t) (i : Slot) : Steady s (closeSlot i t) :=
  (((h.modStream (.inl ⟨rfl, rfl, rfl⟩)).modSelector _ _).modSched _ _).recompute

theorem closeResult (h : Steady s t) (i : Slot) (pc : Option PendingClose) (st : Status) :
    Steady s (closeResult i pc st t) := by
  unfold Machine.closeResult
  split
  · split
    · exact h.complete _ _
    · exact h
  · exact h

theorem endDone (h : Steady s t) (i : Slot) : Steady s (endDone i t) := (h.closeSlot i).closeResult _ _ _

theorem appendEnd (h : Steady s t) (i : Slot) : Steady s (appendEnd i t) := by
  unfold Machine.appendEnd
  split
  · exact h
  · exact h.modGroups _ _

theorem retireHeld (h : Steady s t) (i : Slot) (g : Group) (f : FrameInfo) : Steady s (retireHeld i g f t) :=
  (((h.modEngine _ fun _ x => idle_abandonWork x _).giveBlocks _).count _ _).retire _ _ _ _ _ _

theorem drainCheck (h : Steady s t) (i : Slot) : Steady s (drainCheck i t) := by
  unfold Machine.drainCheck
  split
  · exact h.appendEnd i
  · exact h

theorem leaveGroup (h : Steady s t) (i : Slot) (g : Group) : Steady s (leaveGroup i g t) := by
  unfold Machine.leaveGroup
  split
  · exact (h.retireHeld _ _ _).drainCheck i
  · exact h.drainCheck i
  · exact h.endDone i
  · exact h

theorem leaveDone (h : Steady s t) (i : Slot) : Steady s (leaveDone i t) := by
  unfold Machine.leaveDone
  split
  · exact h
  · exact (h.modGroups _ _).leaveGroup _ _

theorem startTrip (h : Steady s t) : Steady s (startTrip t) := by
  unfold Machine.startTrip
  split
  · exact h
  · exact h.modUplink ⟨rfl, le_rfl⟩

theorem reportDrops (h : Steady s t) (i : Slot) (g : Group) (cause : DropCause) (m : Nat) :
    Steady s (reportDrops i g cause m t) := by
  unfold Machine.reportDrops
  split
  · exact h
  · have key : ∀ {u : State}, Steady s u →
        Steady s (if cause = .late ∧ u.uplink.tx ≠ .down then
          (if isClosingEnd g then Machine.startTrip u else
            Machine.raiseStream i .lateDrop g.fn (Machine.startTrip u)) else u) := by
      intro u hu
      split
      · split
        · exact hu.startTrip
        · exact hu.startTrip.raiseStream _ _ _
      · exact hu
    refine key ?_
    split
    · exact h.countDevice _
    · exact h.count _ _

theorem afterMark (h : Steady s t) (i : Slot) : Steady s (afterMark i t) := (h.releaseBlocks i).leaveDone i

theorem dropHead (h : Steady s t) (i : Slot) (cause : DropCause) : Steady s (dropHead i cause t) := by
  unfold Machine.dropHead
  split
  · exact h
  · exact ((h.modGroups _ _).reportDrops _ _ _ _).afterMark i

theorem settle : ∀ (n : Nat) {t : State}, Steady s t → ∀ i : Slot, Steady s (settle n i t)
  | 0, _, h, _ => h
  | n + 1, t, h, i => by
    unfold Machine.settle
    split
    · exact h
    · split
      · exact settle n (h.dropHead _ _) i
      · split
        · exact settle n (h.dropHead _ _) i
        · exact h

theorem settleHead (h : Steady s t) (i : Slot) : Steady s (settleHead i t) := settle _ h i

theorem judgeHead (h : Steady s t) (b : Option (Group × Entry)) (i : Slot) : Steady s (judgeHead b i t) := by
  unfold Machine.judgeHead
  split
  · exact h
  · exact h.settleHead i

theorem settleFetch (h : Steady s t) (i : Slot) : Steady s (settleFetch i t) := by
  unfold Machine.settleFetch
  split
  · exact h
  · split
    · exact (h.dropHead _ _).settleHead i
    · exact h

theorem expireHead (h : Steady s t) (i : Slot) : Steady s (expireHead i t) := by
  unfold Machine.expireHead
  split
  · exact h
  · split
    · exact (h.dropHead _ _).settleHead i
    · exact h

theorem addGroup (h : Steady s t) (i : Slot) (g : Group) : Steady s (addGroup i g t) :=
  (h.modGroups _ _).judgeHead _ i

theorem removeOlder (h : Steady s t) (i : Slot) : Steady s (removeOlder i t) := by
  unfold Machine.removeOlder
  split
  · exact h
  · split
    · exact h
    · exact (((h.modGroups _ _).reportDrops _ _ _ _).leaveGroup _ _).judgeHead _ i

theorem endGroupNow (h : Steady s t) (i : Slot) (g : Group) : Steady s (endGroupNow i g t) := by
  unfold Machine.endGroupNow
  simp only []
  split
  · exact (h.reportDrops _ _ _ _).retireHeld _ _ _
  · exact h.reportDrops _ _ _ _

theorem endHeld (h : Steady s t) (i : Slot) : Steady s (endHeld i t) :=
  foldl (fun s _ => (refl s).endGroupNow _ _) _ (h.modGroups _ _)

theorem placeClosingEnd (h : Steady s t) (i : Slot) : Steady s (placeClosingEnd i t) := by
  unfold Machine.placeClosingEnd
  split
  · exact h
  · exact h.modGroups _ _

theorem closeAtOnce (h : Steady s t) (i : Slot) : Steady s (closeAtOnce i t) :=
  ((h.endHeld i).placeClosingEnd i).closeSlot i

theorem discardAmendment (h : Steady s t) (i : Slot) : Steady s (discardAmendment i t) := by
  unfold Machine.discardAmendment
  split
  · exact h
  · exact (h.modStream (.inr ⟨rfl, rfl, rfl⟩)).recompute.complete _ _

/-! ## Bulk channels -/

theorem bulkResult (h : Steady s t) (c : Chan) (n : BitVec 32) (st : Status) (r : BulkRecord) :
    Steady s (bulkResult c n st r t) := by
  unfold Machine.bulkResult
  split
  · exact h.complete _ _
  · exact h

theorem endActive (h : Steady s t) (c : Chan) : Steady s (endActive c t) := by
  unfold Machine.endActive
  split
  · exact h
  · exact ((h.modEngine _ fun _ x => idle_abandonChannelJobs x _).giveBlocks _).modChannel
      ⟨rfl, rfl, rfl, by simp, by simp, fun x hx => ⟨x, List.mem_of_mem_tail hx, rfl⟩⟩

theorem endMatching (h : Steady s t) (c : Chan) (p : BulkRecord → Bool) : Steady s (endMatching c p t) := by
  unfold Machine.endMatching
  have filtered : ∀ {u : State}, Steady s u →
      Steady s (Machine.modChannel c (fun ch => { ch with queue := ch.queue.filter fun r => !p r }) u) :=
    fun hu => hu.modChannel ⟨rfl, rfl, rfl, List.length_filter_le _ _, le_rfl, fun x hx => ⟨x, (List.mem_filter.1 hx).1, rfl⟩⟩
  simp only []
  split
  · exact filtered h
  · split
    · exact filtered (h.endActive c)
    · exact filtered h

theorem endFirst (h : Steady s t) (c : Chan) (p : BulkRecord → Bool) : Steady s (endFirst c p t) := by
  unfold Machine.endFirst
  split
  · exact h
  · split
    · exact h.endActive c
    · exact h.modChannel ⟨rfl, rfl, rfl, List.length_eraseP_le, le_rfl, fun x hx => ⟨x, List.mem_of_mem_eraseP hx, rfl⟩⟩

theorem bulkJobFailed (h : Steady s t) (c : Chan) : Steady s (bulkJobFailed c t) := by
  unfold Machine.bulkJobFailed
  simp only []
  split
  · exact h.countDevice _
  · exact ((h.countDevice _).endActive c).bulkResult _ _ _ _

theorem advanceRecord (h : Steady s t) (c : Chan) : Steady s (advanceRecord c t) := by
  unfold Machine.advanceRecord
  split
  · rename_i r rest cfg hq hc
    have hch : ∀ q : List BulkRecord, q.length ≤ rest.length + 1 → (∀ x ∈ q, ∃ y ∈ r :: rest, x.link = y.link) →
        ∀ p : HeldBlock → Bool,
        ChannelShrunk t.channels[c] { t.channels[c] with queue := q, blocks := t.channels[c].blocks.filter p } :=
      fun q hl hx p => ⟨rfl, rfl, rfl, by rw [hq]; exact hl, List.length_filter_le _ _, by rw [hq]; exact hx⟩
    simp only []
    split
    · exact ((h.modChannel (hch _ (by simp) (fun x hx => ⟨x, by simp [hx], rfl⟩) _)).giveBlocks _).bulkResult _ _ _ _
    · refine (h.modChannel (hch _ (by simp) (fun x hx => ?_) _)).giveBlocks _
      rcases List.mem_cons.1 hx with rfl | hx
      · exact ⟨r, by simp, rfl⟩
      · exact ⟨x, by simp [hx], rfl⟩
  · exact h

/-! ## The arbiter -/

theorem countStart (h : Steady s t) (i : Slot) (g : Group) (e : Entry) : Steady s (countStart i g e t) := by
  unfold Machine.countStart
  split
  · exact h.countDevice _
  · split <;> exact h.count _ _

theorem putOnWire (h : Steady s t) (p : Packet) (w : Nat) : Steady s (putOnWire p w t) :=
  (h.modUplink ⟨rfl, Nat.sub_le _ _⟩).emit _

theorem startLive (h : Steady s t) (i : Slot) : Steady s (startLive i t) := by
  unfold Machine.startLive
  split
  · exact h
  · exact (((((h.putOnWire _ _).modUplink (f := fun u => { u with wait := none, slotSeq := updAt u.slotSeq i (· + 1) })
      ⟨rfl, le_rfl⟩).countStart _ _ _).modGroups _ _).afterMark i).settleHead i

theorem startBulk (h : Steady s t) (c : Chan) (o : Offer) : Steady s (startBulk c o t) := by
  have g : ∀ p : Packet, Steady s (Machine.countDevice (fun d => { d with bulkSent := d.bulkSent + 1 })
      (Machine.modUplink (fun u => { u with rr := c, chanSeq := updAt u.chanSeq c (· + 1) })
        (Machine.putOnWire p o.wire t))) :=
    fun p => ((h.putOnWire p o.wire).modUplink
      (f := fun u => { u with rr := c, chanSeq := updAt u.chanSeq c (· + 1) }) ⟨rfl, le_rfl⟩).countDevice _
  unfold Machine.startBulk
  simp only []
  split
  · exact (g _).modChannel ⟨rfl, rfl, rfl, le_rfl, le_rfl, fun x hx => ⟨x, hx, rfl⟩⟩
  · exact (g _).advanceRecord c

theorem bulkOpportunity (h : Steady s t) : Steady s (bulkOpportunity t) := by
  unfold Machine.bulkOpportunity
  split
  · exact h
  · split
    · exact h.startBulk _ _
    · exact h.modUplink ⟨rfl, le_rfl⟩

theorem opportunity (h : Steady s t) : Steady s (opportunity t) := by
  unfold Machine.opportunity
  split
  · have g : Steady s (Machine.modUplink (fun u => { u with wait := none, bulkWait := none }) t) :=
      h.modUplink ⟨rfl, le_rfl⟩
    simp only []
    split
    · exact g.bulkOpportunity
    · split
      · exact g
      · split
        · exact g.startLive _
        · exact g.modUplink ⟨rfl, le_rfl⟩
  · exact h

theorem finish (h : Steady s t) (b : State) : Steady s (finish b t) := by
  unfold Machine.finish
  split
  · exact h.opportunity
  · exact h

end Steady

end Sys2Proof.Machine
end

