-- ==== Sys2Proof/Laws/Requests.lean ====
section
/-!
SUPPORT. What taking and answering a request does, said once: writing a completion into a ring with room, advancing the
head, reading the next entry.
-/

namespace Sys2Proof.Machine

/-- A completion for an UP link whose ring has room is written. -/
theorem complete_of_room {s : State} {l : Link} {c : Completion} (h : HasRoom s l) :
    complete l c s = ringWrite l c s := by
  unfold complete deliver
  simp [h.1, h.2]

/-- A completion for a DOWN link is not written. -/
theorem complete_of_down {s : State} {l : Link} {c : Completion} (h : (s.links.get l).up = false) :
    complete l c s = s := by
  unfold complete deliver
  simp [h]

/-- Advancing the head leaves room in the ring. -/
theorem HasRoom.advance {s : State} {l : Link} (h : HasRoom s l) : HasRoom (advanceHead l s) l := by
  simpa [HasRoom, advanceHead, ringFull, unconsumed] using h

/-- The interface of a link after a completion has been written into its ring. -/
theorem ringWrite_link (l : Link) (c : Completion) (s : State) :
    (ringWrite l c s).links.get l
      = { s.links.get l with cplTail := ((s.links.get l).cplTail + 1) % (s.links.get l).cplEntries.toNat
                             irq := .sent } := by
  unfold ringWrite
  cases hi : (s.links.get l).irq <;> simp [hi]

/-- The other link's interface is not touched by a completion written into a ring. -/
theorem ringWrite_other (l : Link) (c : Completion) (s : State) :
    (ringWrite l c s).links.get (otherLink l) = s.links.get (otherLink l) := by
  unfold ringWrite
  cases hi : (s.links.get l).irq <;> simp [hi]

/-- What a completion written into a ring puts out. -/
theorem ringWrite_outputs (l : Link) (c : Completion) (s : State) :
    (ringWrite l c s).outputs
      = s.outputs ++ .completion l (tailEntry (s.links.get l))
          { c with reqHead := BitVec.ofNat 16 (s.links.get l).reqHead }
        :: (if (s.links.get l).irq = .armed then [.interrupt l] else []) := by
  unfold ringWrite tailEntry
  cases hi : (s.links.get l).irq <;> simp [hi]

/-- A completion written into a ring changes that link's interface and the outputs only. -/
theorem ringWrite_frame (l : Link) (c : Completion) (s : State) :
    ringWrite l c s = { s with links := (ringWrite l c s).links, outputs := (ringWrite l c s).outputs } := by
  unfold ringWrite
  dsimp only
  split <;> rfl

/-- Reading the next entry changes the request in progress of its link and the outputs only. -/
theorem fetchNextRequest_frame (l : Link) (s : State) :
    fetchNextRequest l s
      = { s with links := (fetchNextRequest l s).links, outputs := (fetchNextRequest l s).outputs } := by
  unfold fetchNextRequest
  dsimp only
  split <;> rfl

/-- The other link's interface is not touched by reading the next entry. -/
theorem fetchNextRequest_other (l : Link) (s : State) :
    (fetchNextRequest l s).links.get (otherLink l) = s.links.get (otherLink l) := by
  unfold fetchNextRequest startRequestRead
  dsimp only
  split <;> simp

/-- The interface of an UP, idle link after the next entry, if any, is being read (R174). -/
theorem fetchNextRequest_link {l : Link} {s : State} (up : (s.links.get l).up = true)
    (idle : (s.links.get l).request = none) :
    ∃ q, (fetchNextRequest l s).links.get l = { s.links.get l with request := q }
      ∧ (q = none ↔ (s.links.get l).reqHead = (s.links.get l).reqTail) := by
  unfold fetchNextRequest startRequestRead
  by_cases e : (s.links.get l).reqHead = (s.links.get l).reqTail
  · refine ⟨none, ?_, by simp [e]⟩
    simp only [e, bne_self_eq_false, Bool.and_false, Bool.false_eq_true, if_false]
    generalize s.links.get l = k at idle e ⊢
    cases k
    simp_all
  · refine ⟨some ⟨none, [], nowOf s + Config.readTimeoutNs⟩, ?_, by simp [e]⟩
    simp [e, up, idle]

/-- What reading the next entry puts out. -/
theorem fetchNextRequest_outputs (l : Link) (s : State) :
    (fetchNextRequest l s).outputs = s.outputs
      ∨ ∃ a n, (fetchNextRequest l s).outputs = s.outputs ++ [.requestRead l a n] := by
  unfold fetchNextRequest startRequestRead
  dsimp only
  split
  · exact .inr ⟨_, _, rfl⟩
  · exact .inl rfl

/-- A taken request whose RESULT finds room is answered, and nothing else changes (R174, R177, R179). -/
theorem answered_of {u : State} {l : Link} {c : Completion} (room : HasRoom u l) :
    Answered l c u (fetchNextRequest l (complete l c (advanceHead l u))) := by
  rw [complete_of_room room.advance]
  have hadv : (advanceHead l u).links.get l
      = { u.links.get l with request := none, reqHead := headAfter (u.links.get l) } := by
    simp [advanceHead, headAfter]
  have hlink := ringWrite_link l c (advanceHead l u)
  obtain ⟨q, hq, hiff⟩ := fetchNextRequest_link (l := l) (s := ringWrite l c (advanceHead l u))
    (by rw [hlink, hadv]; exact room.1) (by rw [hlink, hadv])
  refine ⟨?_, ?_, ⟨?_, ?_⟩, ?_⟩
  · rw [fetchNextRequest_frame, ringWrite_frame]; rfl
  · rw [fetchNextRequest_other, ringWrite_other]; simp [advanceHead]
  · rw [hq, hlink, hadv]
  · rw [hq]; simp only []; rw [hiff, hlink, hadv]
  · have ho := ringWrite_outputs l c (advanceHead l u)
    rw [hadv] at ho
    rcases fetchNextRequest_outputs l (ringWrite l c (advanceHead l u)) with h | ⟨a, n, h⟩
    · exact ⟨[], by rw [h, ho, List.append_nil]; rfl, .inl rfl⟩
    · exact ⟨[.requestRead l a n], by rw [h, ho, List.append_assoc]; rfl, .inr ⟨a, n, rfl⟩⟩

/-- A taken request that is not answered yet changes nothing but its link's head and request in progress (R174). -/
theorem deferred_of {u : State} {l : Link} (up : (u.links.get l).up = true) :
    Deferred l u (fetchNextRequest l (advanceHead l u)) := by
  have hadv : (advanceHead l u).links.get l
      = { u.links.get l with request := none, reqHead := headAfter (u.links.get l) } := by
    simp [advanceHead, headAfter]
  obtain ⟨q, hq, -⟩ := fetchNextRequest_link (l := l) (s := advanceHead l u) (by rw [hadv]; exact up) (by rw [hadv])
  refine ⟨?_, ?_, ?_, ?_⟩
  · rw [fetchNextRequest_frame]; rfl
  · rw [fetchNextRequest_other]; simp [advanceHead]
  · rw [hq, hadv]
  · exact fetchNextRequest_outputs l (advanceHead l u)

/-- A request that is in progress and of its row's kind is taken. -/
theorem takeRequest_of {l : Link} {r : Record} {s : State} {row : Bool} {effect : State → State} (hr : row = true)
    (h : requestPending s l r [] = true) :
    takeRequest row l r effect s = fetchNextRequest l (effect (advanceHead l s)) := by
  unfold takeRequest
  rw [hr, h]
  rfl

/-- The request in progress of an UP link is this record, or may become it, whose reads have returned the first of these
replies. -/
theorem requestPending_of {s : State} {l : Link} {r : Record} {replies : List Bytes} {q : RequestInProgress}
    (up : (s.links.get l).up = true) (hq : (s.links.get l).request = some q) (hr : q.record = none ∨ q.record = some r)
    (hg : q.got = replies.take q.got.length) : requestPending s l r replies = true := by
  unfold requestPending
  rw [hq]
  rcases hr with hr | hr <;> simp [up, hr, hg.symm]

/-- A request whose read is under way waits for its reply, and a reply that is too short is the request-fetch fault,
whatever the request would now be judged (R175). -/
theorem takeWithReads_under_way {l : Link} {r : Record} {s : State} {row : Bool} {q : RequestInProgress}
    {got : List Bytes} {judge : State → Judgment} (hr : row = true) (up : (s.links.get l).up = true)
    (hq : (s.links.get l).request = some q) (h : q.record = some r) (hg : q.got = got) :
    takeWithReads row l r got judge s = s
      ∧ ∀ bs rest, bs.length < parameterLen r got →
        takeWithReads row l r (got ++ bs :: rest) judge s = linkDown l true s := by
  constructor
  · unfold takeWithReads readUnderWay
    rw [requestPending_of up hq (.inr h) (by simp [hg]), hq]
    simp [h, hg, hr]
  · intro bs rest short
    unfold takeWithReads readUnderWay shortReply
    rw [requestPending_of up hq (.inr h) (by simp [hg]), hq]
    simp [h, hg, hr, short]

/-- A request at hand is judged: its next read is made, or it is taken (R174, R175). -/
theorem takeWithReads_of {l : Link} {r : Record} {s : State} {row : Bool} {replies : List Bytes}
    {judge : State → Judgment} (hr : row = true) (h : AtHand s l r replies) :
    takeWithReads row l r replies judge s
      = match judge s with
        | .read addr len => startRequestRead l (some r) replies addr len s
        | .short => linkDown l true s
        | .take effect => fetchNextRequest l (effect (advanceHead l s)) := by
  unfold takeWithReads
  rw [h.1.1, hr]
  have waits : readUnderWay s l r replies = false := by
    unfold readUnderWay
    cases hq : (s.links.get l).request with
    | none => rfl
    | some q =>
      by_cases e : q.record = some r
      · obtain ⟨bs, hb, -⟩ := h.2 q hq e
        have : q.got ≠ replies := fun eq => by rw [← eq] at hb; simp at hb
        simp [e, this]
      · simp [e]
  have whole : shortReply s l r replies = false := by
    unfold shortReply
    cases hq : (s.links.get l).request with
    | none => rfl
    | some q =>
      by_cases e : q.record = some r
      · obtain ⟨bs, hb, hl⟩ := h.2 q hq e
        simp [e, hb, hl]
      · simp [e]
  cases judge s <;> simp only [waits, whole, Bool.and_self, Bool.false_eq_true, if_true, if_false]

/-- The link of a request in progress is UP. -/
theorem Ready.room {s : State} {l : Link} {r : Record} {replies : List Bytes} (h : Ready s l r replies) :
    HasRoom s l := by
  refine ⟨?_, h.2⟩
  have := h.1
  simp only [requestPending, Bool.and_eq_true] at this
  exact this.1

/-- A request that is refused, or whose effect leaves the state as it was, is answered over that state. -/
theorem takeRequest_respond {l : Link} {r : Record} {s : State} {row : Bool} {effect : State → State} {st : Status}
    (hr : row = true) (h : Ready s l r []) (he : effect (advanceHead l s) = respond l r st (advanceHead l s)) :
    Answered l (resultOf r st) s (takeRequest row l r effect s) := by
  rw [takeRequest_of hr h.1, he]
  exact answered_of h.room

end Sys2Proof.Machine
end

