-- ==== Sys2Proof/Tests/Slice0.lean ====
section
/-!
SUPPORT. Tests: ill-formed commands that WellFormed refuses, one step of the model on small states, and states that meet
the hypotheses of the obligations, clause by clause. A test named test_meets_<X> gives states and operands that meet the
hypotheses of Obligations.<X> together, with what the manual makes of them.
-/

namespace Sys2Proof.Tests

set_option Elab.async false

open Sys2Proof Sys2Proof.Machine

/-! ## Ill-formed commands -/

/-- The low bytes of a request record, byte 0 first. -/
def record : Bytes → Record
  | [] => 0
  | b :: bs => (record bs <<< 8) ||| b.setWidth 512

theorem test_ill_formed_register : (Instr.registerWrite (.linkWindow .A 0x12 0)).wellFormed = false := by decide +kernel

theorem test_ill_formed_kinds :
    ([.unknownKind .A (record [16]), .nop .A (record [13]), .window .A (record [12]), .openStream .A (record [2]) []
      , .amend .A (record [1]) [], .adopt .A (record [5]), .submit .A (record [7]) [], .bulkPost .A (record [10]) []]
      : List Instr).all (fun c => !c.wellFormed) = true := by decide +kernel

theorem test_ill_formed_actions :
    ([.closeGraceful .A (record [3, 0, 0, 0, 0, 0, 0, 0, 2]), .closeImmediate .A (record [3, 0, 0, 0, 0, 0, 0, 0, 1])
      , .standbyJoin .A (record [5, 0, 0, 0, 0, 0, 0, 0, 2]), .standbyLeave .A (record [5])
      , .cancelOne .A (record [7, 0, 0, 0, 0, 0, 0, 0, 0, 0, 0, 0, 2]), .cancelThrough .A (record [7])
      , .timeSetTrim .A (record [13, 0, 0, 0, 0, 0, 0, 0, 2]), .timeSetStep .A (record [13])
      , .roleTake .A (record [14, 0, 0, 0, 0, 0, 0, 0, 2]), .roleRelease .A (record [14])
      , .bulkSetupSet .A (record [8, 0, 0, 0, 0, 0, 0, 0, 2]) [], .bulkSetupClear .A (record [8])
      , .bulkAbortOne .A (record [10, 0, 0, 0, 0, 0, 0, 0, 0, 0, 0, 0, 2]), .bulkAbortAll .A (record [10])
      , .trapClearDevice .A (record [15, 0, 0, 0, 0, 0, 0, 0, 2]), .trapClearStream .A (record [15])
      , .reportStream .A (record [16, 0, 0, 0, 0, 0, 0, 0, 2]), .reportDevice .A (record [16])]
      : List Instr).all (fun c => !c.wellFormed) = true := by decide +kernel

theorem test_ill_formed_replies :
    ([.openStream .A (record [1]) [[], []], .amend .A (record [2]) [[], [], []], .submit .A (record [6]) [[], []]
      , .bulkSetupSet .A (record [8]) [[], []], .bulkPost .A (record [9]) [[], []]]
      : List Instr).all (fun c => !c.wellFormed) = true := by decide +kernel

theorem test_ill_formed_map :
    ([.mapRead 0x2C true 0, .settingsWrite 0x2C 0x3F [0], .mapTrapClear 0x2C 0x18 [0], .commit 0x2C 0x70 [2]
      , .pacingReset 0x2C 0x70 [1]] : List Instr).all (fun c => !c.wellFormed) = true := by decide +kernel

theorem test_well_formed :
    ([.nop .A (record [12]), .unknownKind .A (record [17]), .registerWrite (.linkWindow .A 0x3C 0)
      , .commit 0x2C 0x70 [1], .pacingReset 0x2C 0x71 [1], .mapTrapClear 0x2C 0x17 [0], .settingsWrite 0x2C 0x5F [0]]
      : List Instr).all (fun c => c.wellFormed) = true := by decide +kernel

/-! ## Small states -/

/-- A link UP with rings of 16 entries and window 0 over all addresses. -/
def upLink : LinkIf :=
  { LinkIf.initial with
    up := true, reqBase := 0x1000, reqEntries := 16, cplBase := 0x2000, cplEntries := 16
    windows := (Vector.replicate 8 AddrWindow.closed).set 0 { base := 0, limit := BitVec.allOnes 64, enabled := true } }

/-- The part after the recall, both links UP, at station time 1,000,000, six staging blocks free. -/
def base : State :=
  { State.reset with
    clock := { Clock.initial with time := 1000000 }
    links := ⟨upLink, upLink⟩
    store := { State.reset.store with ready := true }
    staging := { free := List.range 6, mem := [] }
    uplink := { State.reset.uplink with credit := 524288000000 } }

/-- Link A has this request in progress, with its parameter reads so far. -/
def asking (r : Record) (got : List Bytes) (s : State) : State :=
  { s with links := { s.links with a := { s.links.a with
      reqTail := 1, request := some { record := some r, got := got, expiry := 5000000 } } } }

/-- Link A has asked for a ring entry that it has not read yet. -/
def waiting (s : State) : State :=
  { s with links := { s.links with a := { s.links.a with
      reqTail := 1, request := some { record := none, got := [], expiry := 5000000 } } } }

/-- The state that a command leaves. -/
def after (c : Instr) (s : State) : State :=
  match exec c s with
  | .next t => t
  | _ => s

/-- The completions put out between two states, with their links. -/
def answers (s t : State) : List (Link × CompletionKind) :=
  (t.outputs.drop s.outputs.length).filterMap fun o =>
    match o with
    | .completion l _ c => some (l, c.kind)
    | _ => none

/-- A state without its links and outputs. -/
def core (s : State) : State := { s with links := State.reset.links, outputs := [] }

/-- The interface B has no part in a command, and A's but for its rings. -/
def ringsAside (k : LinkIf) : LinkIf := { k with reqHead := 0, reqTail := 0, cplTail := 0, irq := .sent, request := none }

/-- A request of link A over a state is answered once on A with a status, over the state u. -/
def answeredBy (s u t : State) (st : Status) : Bool :=
  decide (answers s t = [(.A, .result st)]) && decide (core t = core u) && decide (t.links.b = u.links.b)
    && decide (ringsAside t.links.a = ringsAside u.links.a) && decide (t.links.a.reqHead = 1)

/-- AtHand as a test. -/
def atHand (s : State) (l : Link) (r : Record) (replies : List Bytes) : Bool :=
  requestPending s l r replies && !ringFull (s.links.get l) &&
    match (s.links.get l).request with
    | none => true
    | some q =>
      q.record != some r ||
        match replies[q.got.length]? with
        | none => false
        | some bs => decide (parameterLen r q.got ≤ bs.length)

theorem at_hand_of_test {s : State} {l : Link} {r : Record} {replies : List Bytes} (h : atHand s l r replies = true) :
    AtHand s l r replies := by
  unfold atHand at h
  simp only [Bool.and_eq_true, Bool.not_eq_true'] at h
  refine ⟨h.1, fun q hq hr => ?_⟩
  have h2 := h.2
  rw [hq] at h2
  simp only [hr, bne_self_eq_false, Bool.false_or] at h2
  split at h2
  · cases h2
  · exact ⟨_, ‹_›, of_decide_eq_true h2⟩

/-- A NOP record. -/
def nop : Record := record [12]

/-- A template of 16 bytes. -/
def template : Template :=
  { bytes := List.replicate 16 1, patch1 := 2, base1 := 7, patch2 := 4, base2 := 9, sumStart := 0, sumLast := 15
    sumAt := 10 }

/-- 50 frames a second from station time 2,000,000, frame 0 numbered 100. -/
def timing : Timing := { pn := 1, pd := 50, mode := .even, epoch := 2000000, fn0 := 100, fetchLead := 50000 }

/-- Four packets of up to 64 bytes, two ancillary items. -/
def shape : Shape :=
  { n := 4, p := 64, aMax := 2, placement := .lead, template := template, vStar := 1000, leadPk := 1, gracePk := 2 }

/-- A RUNNING stream of link A with link B standing by, its frame 0 selected. -/
def stream : StreamRec :=
  { state := .running, owner := some .A, standby := some .B, timing := timing
    failover := { switchAfter := 1, returnAfter := 2, holdFrames := 5 }, kFirst := 0, shape := shape, rate := 300
    holdCount := 0, staged := none, pendingClose := none, lastSel := some 100 }

/-- Slot 3 carries a stream. -/
def carrying (r : StreamRec) (s : State) : State :=
  { s with
    streams := s.streams.set 3 r
    selectors := s.selectors.set 3 { Selector.initial with due := some 900000 }
    scheds := s.scheds.set 3 { glide := some { offset := 1000, interval := 5000000, index := 0 }, groups := [] }
    admission := { sum := claimSum (s.streams.set 3 r) s.store.active.floor, oversub := false } }

/-- The part with a RUNNING stream in slot 3. -/
def live : State := carrying stream base

/-- A frame record of 100 bytes in one segment. -/
def frame (fn : BitVec 32) (l : Link) : FrameRecord :=
  { fn := fn, len := 100, segments := [{ addr := 0x8000, len := 100 }], ancillary := [], tag := 7, link := l, owed := true }

/-- Put records into slot 3's queue on a link. -/
def queued (l : Link) (fs : List FrameRecord) (s : State) : State := modQueue l 3 (fun _ => fs) s

/-! ## Power-on, recall, station time -/

theorem test_power_on : (after (.powerOnReset false) live).traps.device = 1
    ∧ (after (.powerOnReset true) live).store.ready = false := by decide +kernel

/-- Before the end of the recall, over an image that passes or fails. -/
def recalling (ok : Bool) : State :=
  let k := { Settings.factory with burst := 9216, floor := 1000 }
  { State.reset with store := Store.initial { settings := k, checkOk := ok } }

theorem test_meets_PowerOnAndRecallSetEveryBlock :
    ∀ ok ∈ [true, false],
      (recalling ok).store.ready = false ∧ (∀ i : Slot, (recalling ok).streams[i].state = .closed)
      ∧ (recalling ok).links.a.up = false ∧ (recalling ok).links.b.up = false
      ∧ (after .settingsRecallEnd (recalling ok)).uplink.credit = (if ok then 73728000000 else 524288000000)
      ∧ (after .settingsRecallEnd (recalling ok)).admission.sum = (if ok then 1000 else 0)
      ∧ deviceTrapSet (after .settingsRecallEnd (recalling ok)) .settingsDefaulted = !ok := by decide +kernel

/-- A clock over the base state. -/
def clocked (k : Clock) : State := { base with clock := { k with time := 1000000 } }

/-- Two trimmed nanoseconds, none, an absorption of either sign; time, carry, residual and count after. -/
theorem test_meets_NominalNanosecondsAdvanceTheClock :
    ∀ x ∈ ([({ Clock.initial with carry := 999999999, trim := 200000 }, 1000002, 199999, 0, 0),
        ({ Clock.initial with carry := 0, trim := -200000 }, 1000000, 999800000, 0, 0),
        ({ Clock.initial with residual := 5, absorbed := 9998 }, 1000001, 0, 5, 9999),
        ({ Clock.initial with residual := 5, absorbed := 9999 }, 1000002, 0, 4, 0),
        ({ Clock.initial with residual := 1, absorbed := 9999, carry := 999999999, trim := 1 }, 1000003, 0, 0, 0),
        ({ Clock.initial with residual := -1, absorbed := 9999 }, 1000000, 0, 0, 0)]
        : List (Clock × BitVec 64 × Nat × Int × Nat)),
      ClockInv (clocked x.1) ∧ (clocked x.1).store.ready = true
      ∧ (clocked x.1).uplink.credit ≤ 65536 * 8 * 1000000 ∧ (clocked x.1).clock.time.toNat + 3 < 2 ^ 64
      ∧ (after .nominalNanosecond (clocked x.1)).clock
        = { x.1 with time := x.2.1, carry := x.2.2.1, residual := x.2.2.2.1, absorbed := x.2.2.2.2 } := by
  unfold ClockInv
  decide +kernel

/-- Credit rises with station time up to its cap. -/
theorem test_accrual : (after .nominalNanosecond { base with uplink := { base.uplink with credit := 5 } }).uplink.credit
    = 1000005 := by decide +kernel

theorem test_absorption_row : after .absorption base = base
    ∧ after .absorption (clocked { Clock.initial with residual := 5, absorbed := 9999 })
      = after .nominalNanosecond (clocked { Clock.initial with residual := 5, absorbed := 9999 }) := by decide +kernel

/-- The hypotheses of StationTimeNeverDecreases at a step while a stream runs. -/
theorem test_meets_StationTimeNeverDecreases : ClockInv live ∧ live.clock.time.toNat + 3 < 2 ^ 64
    ∧ exec .nominalNanosecond live = .next (after .nominalNanosecond live) ∧ live.streams[3].state ≠ .closed :=
  ⟨by unfold ClockInv; decide +kernel, by decide +kernel, rfl, by decide +kernel⟩

/-- A TIME-SET with an action and a value. -/
def timeSet (action : Byte) (v : Int) : Record :=
  record ([13, 0, 0, 0, 9, 0, 0, 0, action, 0, 0, 0, 0, 0, 0, 0] ++ leBytes 8 (BitVec.ofInt 64 v).toNat)

/-- A holder of the time role. -/
def held (h : Option Link) (s : State) : State := { s with clock := { s.clock with holder := h } }

/-- Link A asks for a trim. -/
def trimming (action : Byte) (v : Int) (h : Option Link) : State := asking (timeSet action v) [] (held h base)

/-- Action, value, holder; trim and status. -/
theorem test_meets_TrimAndRoleRequestsAreAnswered_trim :
    ∀ x ∈ ([(0, 5, some .A, 0, .badRequest), (1, 5, some .B, 0, .notRole), (1, -200001, some .A, -200000, .clamped),
        (1, -200000, some .A, -200000, .ok), (1, 200000, some .A, 200000, .ok), (1, 200001, some .A, 200000, .clamped)]
        : List (Byte × Int × Option Link × Int × Status)),
      Ready (trimming x.1 x.2.1 x.2.2.1) .A (timeSet x.1 x.2.1) [] ∧ recKind (timeSet x.1 x.2.1) = 13
      ∧ recAction (timeSet x.1 x.2.1) ≠ 2
      ∧ answeredBy (trimming x.1 x.2.1 x.2.2.1)
          { trimming x.1 x.2.1 x.2.2.1 with clock := { (held x.2.2.1 base).clock with trim := x.2.2.2.1 } }
          (after (.timeSetTrim .A (timeSet x.1 x.2.1)) (trimming x.1 x.2.1 x.2.2.1)) x.2.2.2.2 = true := by
  unfold Ready
  decide +kernel

/-- Link A asks for a step while a stream runs, TIME_CLAMPED set or not. -/
def stepping (v : Int) (h : Option Link) (device : BitVec 16) : State :=
  asking (timeSet 2 v) [] (held h { live with traps := { live.traps with device := device } })

/-- Offset, holder; residual and status. -/
theorem test_meets_AbsorbedStepAddsToTheResidual :
    ∀ x ∈ ([(-1000000000001, some .A, 0, .badRequest), (1000000000001, some .A, 0, .badRequest),
        (5, none, 0, .notRole), (0, some .A, 0, .ok), (1000000000000, some .A, 1000000000000, .clamped),
        (-1000000000000, some .A, -1000000000000, .clamped)] : List (Int × Option Link × Int × Status)),
      Ready (stepping x.1 x.2.1 4) .A (timeSet 2 x.1) [] ∧ recKind (timeSet 2 x.1) = 13
      ∧ recAction (timeSet 2 x.1) = 2 ∧ timeValue (timeSet 2 x.1) = x.1
      ∧ (stepping x.1 x.2.1 4).streams[3].state ≠ .closed ∧ deviceTrapSet (stepping x.1 x.2.1 4) .timeClamped = true
      ∧ answeredBy (stepping x.1 x.2.1 4)
          { stepping x.1 x.2.1 4 with clock := { (held x.2.1 base).clock with residual := x.2.2.1 } }
          (after (.timeSetStep .A (timeSet 2 x.1)) (stepping x.1 x.2.1 4)) x.2.2.2 = true := by
  unfold Ready
  decide +kernel

/-- The trap of the first absorbed step is announced on both links before the RESULT (log 27). -/
theorem test_meets_AbsorbedStepAddsToTheResidual_first :
    Ready (stepping 7 (some .A) 0) .A (timeSet 2 7) [] ∧ deviceTrapSet (stepping 7 (some .A) 0) .timeClamped = false
    ∧ HasRoom (stepping 7 (some .A) 0) (otherLink .A)
    ∧ ringFull { (stepping 7 (some .A) 0).links.get .A with cplTail := 1 % 16 } = false
    ∧ ((after (.timeSetStep .A (timeSet 2 7)) (stepping 7 (some .A) 0)).outputs.filterMap fun o =>
        match o with
        | .completion l a c => some (l, a, c.kind, c.tag, c.reqHead)
        | _ => none)
      = [(.A, 0x2000, .notice .trap, 2, 1), (.B, 0x2000, .notice .trap, 2, 0), (.A, 0x2020, .result .clamped, 9, 1)] := by
  unfold Ready HasRoom
  decide +kernel

/-- Link A asks for a step while no stream runs, a trip and a hold under way. -/
def jumping (v : Int) : State :=
  asking (timeSet 2 v) [] (held (some .A) { base with
    uplink := { base.uplink with trip := some 5 }
    channels := base.channels.set 2 { Channel.initial with hold := .held 5 } })

/-- Offset; time, expiry and status. No slot has a head, so no deadline is passed. -/
theorem test_meets_ImmediateStepJumpsAndMovesTimers :
    ∀ x ∈ ([(-1000001, 1000000, 5, .badRequest), (-1000000, 0, -999995, .ok), (250, 1000250, 255, .ok)]
        : List (Int × BitVec 64 × Int × Status)),
      Ready (jumping x.1) .A (timeSet 2 x.1) [] ∧ recKind (timeSet 2 x.1) = 13 ∧ recAction (timeSet 2 x.1) = 2
      ∧ timeValue (timeSet 2 x.1) = x.1 ∧ (jumping x.1).clock.holder = some .A
      ∧ (∀ i : Slot, (jumping x.1).streams[i].state = .closed) ∧ (∀ i : Slot, slotHead (jumping x.1) i = none)
      ∧ answers (jumping x.1) (after (.timeSetStep .A (timeSet 2 x.1)) (jumping x.1)) = [(.A, .result x.2.2.2)]
      ∧ (after (.timeSetStep .A (timeSet 2 x.1)) (jumping x.1)).clock.time = x.2.1
      ∧ (after (.timeSetStep .A (timeSet 2 x.1)) (jumping x.1)).uplink.trip = some x.2.2.1
      ∧ (after (.timeSetStep .A (timeSet 2 x.1)) (jumping x.1)).channels[2].hold = .held x.2.2.1 := by
  unfold Ready
  decide +kernel

/-- A ROLE request. -/
def role (action : Byte) : Record := record [14, 0, 0, 0, 0, 0, 0, 0, action]

/-- The command of a ROLE request. -/
def roleCommand (action : Byte) : Instr := if action = 2 then .roleRelease .A (role action) else .roleTake .A (role action)

/-- Action, holder; holder after, completions. -/
theorem test_meets_TrimAndRoleRequestsAreAnswered_role :
    ∀ x ∈ ([(0, none, none, [(.A, .result .badRequest)]), (1, some .A, some .A, [(.A, .result .ok)]),
        (1, some .B, some .B, [(.A, .result .roleHeld)]),
        (1, none, some .A, [(.B, .notice .role), (.A, .result .ok)]),
        (2, some .A, none, [(.B, .notice .role), (.A, .result .ok)]), (2, none, none, [(.A, .result .notRole)])]
        : List (Byte × Option Link × Option Link × List (Link × CompletionKind))),
      Ready (asking (role x.1) [] (held x.2.1 base)) .A (role x.1) []
      ∧ HasRoom (asking (role x.1) [] (held x.2.1 base)) (otherLink .A) ∧ recKind (role x.1) = 14
      ∧ (after (roleCommand x.1) (asking (role x.1) [] (held x.2.1 base))).clock.holder = x.2.2.1
      ∧ answers (asking (role x.1) [] (held x.2.1 base))
          (after (roleCommand x.1) (asking (role x.1) [] (held x.2.1 base))) = x.2.2.2 := by
  unfold Ready HasRoom
  decide +kernel

/-- A latch outlives another link's read, an unbind and a bind, and is 0 after power-on. -/
theorem test_meets_StationTimeReadsInTwoHalves :
    ∀ x ∈ ([(.stationTimeLowRead .A, 0), (.stationTimeLowRead .B, 5), (.unbind .A, 5), (.powerOnReset true, 0)]
        : List (Instr × Nat)),
      exec x.1 (modLink .A (fun k => { k with latch := 5 }) base)
        = .next (after x.1 (modLink .A (fun k => { k with latch := 5 }) base))
      ∧ (linkRegister (after x.1 (modLink .A (fun k => { k with latch := 5 }) base)) .A 0x3C).toNat = x.2 := by
  have h : ∀ x ∈ ([(.stationTimeLowRead .A, 0), (.stationTimeLowRead .B, 5), (.unbind .A, 5), (.powerOnReset true, 0)]
        : List (Instr × Nat)),
      (linkRegister (after x.1 (modLink .A (fun k => { k with latch := 5 }) base)) .A 0x3C).toNat = x.2 := by
    decide +kernel
  intro x hx
  refine ⟨?_, h x hx⟩
  simp only [List.mem_cons, List.not_mem_nil, or_false] at hx
  rcases hx with rfl | rfl | rfl | rfl <;> rfl

/-! ## Engine links -/

/-- Link A is DOWN with a ring geometry. -/
def unbound (entries cpl : Nat) (ready : Bool) : State :=
  { base with
    links := { base.links with a := { upLink with
      up := false, reqEntries := BitVec.ofNat 32 entries, cplEntries := BitVec.ofNat 32 cpl } }
    store := { base.store with ready := ready } }

/-- Geometry at its ends, and just past them. -/
theorem test_meets_BindJudgesReadinessAndGeometry :
    GeometryGood (unbound 16 4096 true).links.a ∧ GeometryGood (unbound 1024 16 true).links.a
    ∧ ¬ GeometryGood (unbound 8 16 true).links.a ∧ ¬ GeometryGood (unbound 2048 16 true).links.a
    ∧ ¬ GeometryGood { upLink with reqBase := 32 } := by
  refine ⟨⟨by decide, by decide, ⟨4, by decide⟩, ⟨12, by decide⟩⟩, ⟨by decide, by decide, ⟨10, by decide⟩, ⟨4, by decide⟩⟩,
    fun h => ?_, fun h => ?_, fun h => ?_⟩
  · obtain ⟨a, h1, -, h3⟩ := h.2.2.1
    have : 2 ^ 4 ≤ 2 ^ a := Nat.pow_le_pow_right (by decide) h1
    rw [← h3] at this
    exact absurd this (by decide)
  · obtain ⟨a, -, h2, h3⟩ := h.2.2.1
    have : 2 ^ a ≤ 2 ^ 10 := Nat.pow_le_pow_right (by decide) h2
    rw [← h3] at this
    exact absurd this (by decide)
  · exact absurd h.1 (by decide)

/-- Entries and readiness; up, bind error and not ready after a bind. -/
theorem test_bind :
    (∀ x ∈ ([(16, 4096, true, true, false, false), (1024, 16, true, true, false, false), (8, 16, true, false, true, false),
        (2048, 16, true, false, true, false), (16, 8192, true, false, true, false), (16, 16, false, false, false, true)]
        : List (Nat × Nat × Bool × Bool × Bool × Bool)),
      (after (.bind .A) (unbound x.1 x.2.1 x.2.2.1)).links.a.up = x.2.2.2.1
      ∧ (after (.bind .A) (unbound x.1 x.2.1 x.2.2.1)).links.a.bindError = x.2.2.2.2.1
      ∧ (after (.bind .A) (unbound x.1 x.2.1 x.2.2.1)).links.a.notReady = x.2.2.2.2.2)
    ∧ after (.bind .A) base = base := by decide +kernel

/-- Preference and holder before a bind of A; holder after it. -/
def preferring (p h : Option Link) : State :=
  held h { unbound 16 16 true with store := { base.store with active := { base.store.active with rolePref := p } } }

theorem test_meets_RolePreferenceActsAtABind :
    (∀ x ∈ ([(some .A, none, some .A), (some .A, some .B, some .B), (some .B, none, none), (none, none, none)]
        : List (Option Link × Option Link × Option Link)),
      ((preferring x.1 x.2.1).links.get .A).up = false
      ∧ ((after (.bind .A) (preferring x.1 x.2.1)).links.get .A).up = true
      ∧ (after (.bind .A) (preferring x.1 x.2.1)).clock.holder = x.2.2)
    ∧ acknowledged base 0x2C = true
    ∧ (∀ p ∈ ([none, some .A, some .B] : List (Option Link)),
      (after (.settingsWrite 0x2C 0x47 [linkCode p]) base).store.active.rolePref = p
      ∧ (after (.settingsWrite 0x2C 0x47 [linkCode p]) base).clock.holder = none) := by decide +kernel

/-- Link A holds the role, has a record queued, and its request's read has timed out. -/
def busyLink : State :=
  asking nop [] (queued .A [frame 101 .A] (held (some .A) { live with clock := { live.clock with time := 5000000 } }))

theorem test_meets_LinkDownUnbindsAndFrees :
    ∀ x ∈ ([(.pcieFunctionReset .A, false, 0), (.requestReadTimeout .A, true, 16)] : List (Instr × Bool × Nat)),
      (busyLink.links.get .A).up = true ∧ (busyLink.links.get .A).request.map (·.expiry) = some 5000000
      ∧ nowOf busyLink = 5000000
      ∧ (after x.1 busyLink).links.a.up = false ∧ (after x.1 busyLink).links.a.fault = x.2.1
      ∧ (after x.1 busyLink).links.a.reqEntries.toNat = x.2.2 ∧ (after x.1 busyLink).clock.holder = none
      ∧ queueOf (after x.1 busyLink) .A 3 = [] ∧ deviceTrapSet (after x.1 busyLink) (.linkDown .A) = true
      ∧ answers busyLink (after x.1 busyLink) = [(.B, .notice .role), (.B, .notice .membership), (.B, .notice .trap)] := by
  decide +kernel

theorem test_loss_of_down_link : ((unbound 16 16 true).links.get .A).up = false
    ∧ after (.unbind .A) (unbound 16 16 true) = unbound 16 16 true
    ∧ after (.pcieLinkLoss .A) (unbound 16 16 true) = unbound 16 16 true
    ∧ after (.requestReadError .A) (unbound 16 16 true) = unbound 16 16 true
    ∧ after (.requestReadTimeout .A) (unbound 16 16 true) = unbound 16 16 true
    ∧ (after (.pcieFunctionReset .A) (unbound 16 16 true)).links.a.reqEntries = 0 := by decide +kernel

/-- MembersOk as a test. -/
def membersTest (up : Link → Bool) (r : StreamRec) : Bool :=
  match r.state, r.owner with
  | .closed, none => r.standby.isNone
  | .holding, none => r.standby.isNone
  | .armed, some l => up l && (r.standby.isNone || (r.standby == some (otherLink l) && up (otherLink l)))
  | .running, some l => up l && (r.standby.isNone || (r.standby == some (otherLink l) && up (otherLink l)))
  | .draining, some l => up l && (r.standby.isNone || (r.standby == some (otherLink l) && up (otherLink l)))
  | _, _ => false

theorem members_of_test {up : Link → Bool} {r : StreamRec} (h : membersTest up r = true) : MembersOk up r := by
  unfold membersTest at h
  unfold MembersOk
  cases hs : r.state <;> cases ho : r.owner <;> simp_all

/-- MembershipInv as a test. -/
def membersHold (s : State) : Bool := (List.finRange 32).all fun i => membersTest (fun l => (s.links.get l).up) s.streams[i]

theorem membership_of_test {s : State} (h : membersHold s = true) : MembershipInv s :=
  fun i => members_of_test (List.all_eq_true.mp h i (List.mem_finRange i))

/-- EndInv as a test. -/
def endsHold (s : State) : Bool :=
  (List.finRange 32).all fun i =>
    s.scheds[i].groups.all (fun g =>
      (g.kind != .endMark && g.kind != .closingEnd || g.entries.all fun e => e.arrival == .arrived)
        && (g.kind != .endMark || s.streams[i].state == .draining && heldCount s i == 0))
      && decide ((s.scheds[i].groups.filter fun g => g.kind == .endMark).length ≤ 1)

theorem ends_of_test {s : State} (h : endsHold s = true) : EndInv s := by
  intro i
  have hi := List.all_eq_true.mp h i (List.mem_finRange i)
  rw [Bool.and_eq_true, List.all_eq_true] at hi
  refine ⟨fun g hg hk e he => ?_, fun g hg hk => ?_, of_decide_eq_true hi.2⟩
  · have hgg := hi.1 g hg
    rcases hk with hk | hk <;> simp_all
  · have hgg := hi.1 g hg
    simp_all

/-- State, owner and standby of slot 3 before the loss of link A; state, owner and notices on B after it. -/
def lossCases : List (StreamState × Option Link × Option Link × StreamState × Option Link × Nat) :=
  [(.running, some .A, some .B, .running, some .B, 2), (.running, some .B, some .A, .running, some .B, 2),
    (.running, some .A, none, .holding, none, 3), (.armed, some .A, none, .closed, none, 2),
    (.draining, some .A, none, .closed, none, 2)]

/-- The part before the loss. -/
def lossState (x : StreamState × Option Link × Option Link × StreamState × Option Link × Nat) : State :=
  carrying { stream with state := x.1, owner := x.2.1, standby := x.2.2.1 } base

theorem test_meets_LinkDownMovesMembership :
    ∀ x ∈ lossCases, LosesLink (.unbind .A) .A (lossState x) ∧ MembershipInv (lossState x) ∧ EndInv (lossState x)
      ∧ (after (.unbind .A) (lossState x)).streams[3].state = x.2.2.2.1
      ∧ (after (.unbind .A) (lossState x)).streams[3].owner = x.2.2.2.2.1
      ∧ (after (.unbind .A) (lossState x)).streams[3].standby = none
      ∧ (answers (lossState x) (after (.unbind .A) (lossState x))).length = x.2.2.2.2.2 := by
  have h : ∀ x ∈ lossCases, membersHold (lossState x) = true ∧ endsHold (lossState x) = true
      ∧ ((lossState x).links.get .A).up = true
      ∧ (after (.unbind .A) (lossState x)).streams[3].state = x.2.2.2.1
      ∧ (after (.unbind .A) (lossState x)).streams[3].owner = x.2.2.2.2.1
      ∧ (after (.unbind .A) (lossState x)).streams[3].standby = none
      ∧ (answers (lossState x) (after (.unbind .A) (lossState x))).length = x.2.2.2.2.2 := by decide +kernel
  exact fun x hx => ⟨⟨(h x hx).2.2.1, .inl rfl⟩, membership_of_test (h x hx).1, ends_of_test (h x hx).2.1, (h x hx).2.2.2⟩

/-- Slot 3 in a state, B standing by or not, with a frame of A of which the first packet has arrived, and one of B. -/
def departing (state : StreamState) (standby : Option Link) : State :=
  let a := frameGroup timing shape 0 1000 (frame 100 .A) false [9]
  let s := lossState (state, some .A, standby, state, none, 0)
  { s with
    uplink := { s.uplink with tx := .sending }
    scheds := s.scheds.set 3 { s.scheds[3] with
      groups := [{ a with entries := (a.entries.zip [.arrived, .waiting]).map fun x => { x.1 with arrival := x.2 } },
        frameGroup timing shape 1 1000 (frame 101 .B) true [10]] } }

/-- Frame, result owed and arrivals of the groups of slot 3. -/
def arrivals (s : State) : List (BitVec 32 × Bool × List Arrival) :=
  (groupsOf s 3).map fun g => (g.fn, (match g.kind with | .frame f => f.record.owed | _ => false), g.entries.map (·.arrival))

/-- A link's loss leaves what has arrived and nothing more of its frames; a DRAINING stream of A alone is left its closing
END, its four packets dropped CLOSED (R44, R69, R116). -/
theorem test_meets_LinkDownMovesMembership_list :
    (∀ x ∈ [(StreamState.running, some Link.B), (.draining, some .B), (.running, none), (.draining, none)],
      membersHold (departing x.1 x.2) = true ∧ endsHold (departing x.1 x.2) = true
      ∧ (departing x.1 x.2).scheds[3].glide = some { offset := 1000, interval := 5000000, index := 0 })
    ∧ (∀ x ∈ [(StreamState.running, some Link.B), (.draining, some .B), (.running, none)],
      arrivals (after (.unbind .A) (departing x.1 x.2))
        = [(100, false, [.arrived, .never]), (101, true, [.waiting, .waiting])])
    ∧ (groupsOf (after (.unbind .A) (departing .draining none)) 3).map (fun g => (g.kind, g.fn)) = [(.closingEnd, 100)]
    ∧ (after (.unbind .A) (departing .draining none)).traps.counters[3].dropsClosed = 4 := by decide +kernel

/-- The other causes of R171, on a link whose request's read has timed out. -/
theorem test_loss_causes : ∀ c ∈ ([.pcieLinkLoss .A, .pcieFunctionReset .A, .requestReadError .A, .requestReadTimeout .A]
      : List Instr), LosesLink c .A busyLink ∧ (after c busyLink).streams[3].owner = some .B := by
  have h : ∀ c ∈ ([.pcieLinkLoss .A, .pcieFunctionReset .A, .requestReadError .A, .requestReadTimeout .A] : List Instr),
      (after c busyLink).streams[3].owner = some .B := by decide +kernel
  refine fun c hc => ⟨⟨by decide +kernel, ?_⟩, h c hc⟩
  simp only [List.mem_cons, List.not_mem_nil, or_false] at hc
  rcases hc with rfl | rfl | rfl | rfl
  · exact .inr (.inl rfl)
  · exact .inr (.inr (.inl rfl))
  · exact .inr (.inr (.inr (.inl ⟨rfl, by decide +kernel⟩)))
  · exact .inr (.inr (.inr (.inr ⟨rfl, _, rfl, by decide +kernel⟩)))

/-- Link A holds the role and is the last member of slot 3's stream. -/
def lastMember : State := held (some .A) (carrying { stream with standby := none } base)

/-- ROLE naming NONE, MEMBERSHIP, ORPHANED and LINK_A_DOWN in this order (R183): kind, slot byte, tag and bytes 26 to 29. -/
theorem test_meets_LossNoticesStandInOrder :
    LosesLink (.unbind .A) .A lastMember ∧ MembershipInv lastMember ∧ EndInv lastMember ∧ AdmissionInv lastMember
    ∧ (∀ i : Slot, lastMember.scheds[i].groups = [])
    ∧ ((after (.unbind .A) lastMember).outputs.filterMap fun o =>
        match o with
        | .completion l _ c => some (l, c.kind, c.unit, c.tag, [c.b26, c.b27, c.b28, c.b29])
        | _ => none)
      = [(.B, .notice .role, 255, 0, [0, 0, 0, 0]), (.B, .notice .membership, 3, 0, [4, 0, 0, 1]),
        (.B, .notice .trap, 3, 20, [0, 0, 0, 0]), (.B, .notice .trap, 255, 6, [0, 0, 0, 0])] := by
  refine ⟨⟨by decide +kernel, .inl rfl⟩, membership_of_test (by decide +kernel), ends_of_test (by decide +kernel), ?_,
    by decide +kernel, by decide +kernel⟩
  unfold AdmissionInv
  decide +kernel

/-- Geometry is written while DOWN; a read-only offset and an unlisted row take nothing. -/
theorem test_meets_RegisterWindowActsAsListed :
    (∀ x ∈ ([(0x08, 1), (0x0C, 2), (0x10, 3), (0x1C, 4), (0x20, 5), (0x24, 6)] : List (BitVec 8 × Nat)),
      x.1.toNat ∈ [0x08, 0x0C, 0x10, 0x1C, 0x20, 0x24]
      ∧ after (.registerWrite (.linkWindow .A x.1 (BitVec.ofNat 32 x.2))) base = base
      ∧ linkRegister (after (.registerWrite (.linkWindow .A x.1 (BitVec.ofNat 32 x.2))) (unbound 16 16 true)) .A x.1.toNat = BitVec.ofNat 32 x.2)
    ∧ after (.registerWrite (.linkWindow .A 0x2C 9)) base = base ∧ acknowledged base 0x2C = true
    ∧ (after (.registerWrite (.map 0x2C 0x1E [9, 9, 9])) base).port.pointer = 0x19 := by
  decide +kernel

theorem test_time_halves :
    (after (.stationTimeLowRead .A) { base with clock := { base.clock with time := 0x100000002 } }).outputs = [.timeLow .A 2]
    ∧ linkRegister (after (.stationTimeLowRead .A) { base with clock := { base.clock with time := 0x100000002 } }) .A 0x3C
      = 1 := by decide +kernel

/-- Tail and head writes are taken modulo 16. -/
theorem test_meets_RingPointersAreWrittenModuloTheRing :
    (base.links.get .A).up = true ∧ (base.links.get .B).up = true
    ∧ (after (.requestTailWrite .A 18) base).links.a.reqTail = 2
    ∧ (after (.requestTailWrite .A 18) base).outputs = [.requestRead .A 0x1000 64]
    ∧ after (.requestTailWrite .A 16) base = base
    ∧ (after (.completionHeadWrite .A 17) base).links.a.cplHead = 1
    ∧ (after (.completionHeadWrite .A 17) base).links.a.irq = .sent
    ∧ (after (.completionHeadWrite .A 17) base).outputs = [.interrupt .A]
    ∧ (after (.completionHeadWrite .A 16) base).links.a.irq = .armed
    ∧ after (.requestTailWrite .A 1) (unbound 16 16 true) = unbound 16 16 true
    ∧ after (.completionHeadWrite .A 1) (unbound 16 16 true) = unbound 16 16 true := by decide +kernel

/-- Link A's completion ring is full. -/
def fullRing (s : State) : State := { s with links := { s.links with a := { s.links.a with cplTail := 15, irq := .sent } } }

/-- A full ring at which CPL_LOST is set. -/
def lossy : State := fullRing (asking nop [] { base with traps := { base.traps with device := 16 } })

theorem test_meets_InterfaceRequestsAreAnswered_nop :
    Ready (asking nop [] base) .A nop [] ∧ recKind nop = 12
    ∧ answeredBy (asking nop [] base) (asking nop [] base) (after (.nop .A nop) (asking nop [] base)) .ok = true
    ∧ Ready (waiting base) .A nop []
    ∧ answeredBy (waiting base) (waiting base) (after (.nop .A nop) (waiting base)) .ok = true
    ∧ (∀ k ∈ ([0, 17, 255] : List Nat), Ready (asking (record [BitVec.ofNat 8 k]) [] base) .A (record [BitVec.ofNat 8 k]) []
      ∧ answeredBy (asking (record [BitVec.ofNat 8 k]) [] base) (asking (record [BitVec.ofNat 8 k]) [] base)
          (after (.unknownKind .A (record [BitVec.ofNat 8 k])) (asking (record [BitVec.ofNat 8 k]) [] base)) .badRequest = true)
    ∧ requestPending lossy .A nop [] = true ∧ ringFull (lossy.links.get .A) = true
    ∧ deviceTrapSet lossy (.cplLost .A) = true ∧ (after (.nop .A nop) lossy).links.a.lost = 1
    ∧ answers lossy (after (.nop .A nop) lossy) = []
    ∧ after (.unknownKind .A nop) (asking nop [] base) = asking nop [] base := by
  unfold Ready
  decide +kernel

/-- Both completion rings are full. -/
def fullRings : State :=
  let s := fullRing base
  { s with links := { s.links with b := s.links.a } }

/-- A completion with room, to a DOWN link, at a full ring before CPL_LOST, and with the other ring full too. -/
theorem test_meets_CompletionIsWrittenDiscardedOrIgnored :
    HasRoom base .A ∧ (complete .A (mkNotice .reset 255) base).links.a.cplTail = 1
    ∧ ((unbound 16 16 true).links.get .A).up = false
    ∧ complete .A (mkNotice .reset 255) (unbound 16 16 true) = unbound 16 16 true
    ∧ ((fullRing base).links.get .A).up = true ∧ ringFull ((fullRing base).links.get .A) = true
    ∧ deviceTrapSet (fullRing base) (.cplLost .A) = false
    ∧ (complete .A (mkNotice .reset 255) (fullRing base)).links.a.lost = 2
    ∧ (∀ l ∈ ([.A, .B] : List Link), ((fullRings.links.get l).up = true ∧ ringFull (fullRings.links.get l) = true
        ∧ deviceTrapSet fullRings (.cplLost l) = false)
      ∧ ((complete l (mkNotice .reset 255) fullRings).links.get l).lost = 3
      ∧ ((complete l (mkNotice .reset 255) fullRings).links.get (otherLink l)).lost = 2
      ∧ (complete l (mkNotice .reset 255) fullRings).traps.device = 0x30)
    ∧ ((complete .A (mkNotice .reset 255) { fullRings with traps := { base.traps with device := 0x20 } }).links.a.lost,
        (complete .A (mkNotice .reset 255) { fullRings with traps := { base.traps with device := 0x20 } }).links.b.lost)
      = (2, 1)
    ∧ answers (fullRing base) (complete .A (mkNotice .reset 255) (fullRing base)) = [(.B, .notice .trap)] := by
  unfold HasRoom
  decide +kernel

/-- A WINDOW request. -/
def windowRecord (index enable : Byte) (lo hi : Nat) : Record :=
  record ([11, 0, 0, 0, 0, 0, 0, 0, index, enable, 0, 0, 0, 0, 0, 0] ++ leBytes 8 lo ++ leBytes 8 hi)

/-- Link A asks for a window. -/
def windowing (x : Byte × Byte × Nat × Nat × Status) : State := asking (windowRecord x.1 x.2.1 x.2.2.1 x.2.2.2.1) [] base

/-- Window 7 holds the one address 5. -/
def narrow : LinkIf :=
  { upLink with
    windows := (Vector.replicate 8 AddrWindow.closed).set 7 { base := 5, limit := 5, enabled := true } }

/-- Index, enable, base, limit; status. Windows at the ends of a range. -/
theorem test_meets_InterfaceRequestsAreAnswered_window :
    (∀ x ∈ ([(7, 1, 5, 5, .ok), (7, 0, 5, 4, .ok), (8, 1, 5, 6, .badRequest), (7, 2, 5, 6, .badRequest),
        (7, 1, 5, 4, .badRequest)] : List (Byte × Byte × Nat × Nat × Status)),
      Ready (windowing x) .A (windowRecord x.1 x.2.1 x.2.2.1 x.2.2.2.1) []
      ∧ recKind (windowRecord x.1 x.2.1 x.2.2.1 x.2.2.2.1) = 11
      ∧ answeredBy (windowing x) (if x.2.2.2.2 = .ok then
          modLink .A (fun k => { k with
            windows := k.windows.set 7 { base := 5, limit := BitVec.ofNat 64 x.2.2.2.1, enabled := x.2.1 == 1 } })
            (windowing x)
        else windowing x) (after (.window .A (windowRecord x.1 x.2.1 x.2.2.1 x.2.2.2.1)) (windowing x)) x.2.2.2.2 = true)
    ∧ (∀ w ∈ ([(5, 1, true), (5, 2, false), (4, 1, false)] : List (Nat × Nat × Bool)),
      rangeInside narrow (BitVec.ofNat 64 w.1) w.2.1 = w.2.2)
    ∧ rangeInside upLink (BitVec.allOnes 64) 1 = true ∧ rangeInside upLink (BitVec.allOnes 64) 2 = false := by
  unfold Ready
  decide +kernel

/-! ## Parameter reads -/

/-- A request of a kind for a unit with an action at 8 and an address at 16 and 24. -/
def pointing (kind unit : Byte) : Record :=
  record ([kind, 0, unit, 0, 9, 0, 0, 0, 1, 0, 0, 0, 1, 0, 0, 0, 0, 0x70, 0, 0, 0, 0, 0, 0, 0, 0x70, 0, 0, 0, 0, 0, 0])

/-- An OPEN, an AMEND, a SUBMIT with one segment, a BULK-SETUP SET and a BULK-POST with one segment, with the address and
the length of their first reads. -/
def readers : List (Record × (List Bytes → Instr) × BitVec 64 × Nat) :=
  [(pointing 1 3, .openStream .A (pointing 1 3), 0x100000001, 256),
    (pointing 2 3, .amend .A (pointing 2 3), 0x100000001, 64),
    (record ([6, 0, 3, 0, 9, 0, 0, 0, 101, 0, 0, 0, 100, 0, 0, 0, 1, 0, 0, 0, 0, 0, 0, 0, 0, 0x70]),
      .submit .A (record ([6, 0, 3, 0, 9, 0, 0, 0, 101, 0, 0, 0, 100, 0, 0, 0, 1, 0, 0, 0, 0, 0, 0, 0, 0, 0x70])), 0x7000, 16),
    (pointing 8 1, .bulkSetupSet .A (pointing 8 1), 0x7000, 128),
    (pointing 9 2, .bulkPost .A (pointing 9 2), 0x7000, 16)]

/-- A stream in slot 3, channel 2 configured. -/
def furnished : State :=
  { live with channels := live.channels.set 2 { Channel.initial with config := some { template := template, pb := 1024 } } }

theorem test_meets_ParameterReadsAreMadeAndMustBeComplete :
    ∀ x ∈ readers, requestPending (waiting furnished) .A x.1 [] = true
      ∧ rangeInside ((waiting furnished).links.get .A) x.2.2.1 x.2.2.2 = true
      ∧ (after (x.2.1 []) (waiting furnished)).outputs = [.requestRead .A x.2.2.1 x.2.2.2]
      ∧ (after (x.2.1 []) (waiting furnished)).links.a.request
        = some { record := some x.1, got := [], expiry := 1200000 }
      ∧ after (x.2.1 []) (asking x.1 [] furnished) = asking x.1 [] furnished := by decide +kernel

/-- A SUBMIT of slot 3 with a list of one segment at 0x7000. -/
def listed : Record := record ([6, 0, 3, 0, 9, 0, 0, 0, 101, 0, 0, 0, 100, 0, 0, 0, 1, 0, 0, 0, 0, 0, 0, 0, 0, 0x70])

/-- The reads of an AMEND of an ARMED stream, and of a SUBMIT to an ARMED stream and from the standby. -/
theorem test_parameter_reads_made :
    (after (.amend .A (pointing 2 3) []) (waiting (carrying { stream with state := .armed } base))).outputs
      = [.requestRead .A 0x100000001 64]
    ∧ (after (.submit .A listed []) (waiting (carrying { stream with state := .armed } base))).outputs
      = [.requestRead .A 0x7000 16]
    ∧ (after (.submit .A listed []) (waiting (carrying { stream with owner := some .B, standby := some .A } base))).outputs
      = [.requestRead .A 0x7000 16] := by decide +kernel

/-- A list that comes in short, and one that has not come in, after the stream has left RUNNING. -/
theorem test_short_reply :
    ∀ st ∈ ([.running, .draining] : List StreamState),
      after (.submit .A listed [[1]]) (asking listed [] (carrying { stream with state := st } base))
        = after (.requestReadError .A) (asking listed [] (carrying { stream with state := st } base))
      ∧ (after (.submit .A listed [[1]]) (asking listed [] (carrying { stream with state := st } base))).links.a.fault = true
      ∧ after (.submit .A listed []) (asking listed [] (carrying { stream with state := st } base))
        = asking listed [] (carrying { stream with state := st } base) := by decide +kernel

/-- The units and fields those requests carry. -/
theorem test_readers : recKind (pointing 1 3) = 1 ∧ recKind (pointing 2 3) = 2 ∧ recKind (pointing 8 1) = 8
    ∧ recAction (pointing 8 1) = 1 ∧ recKind (pointing 9 2) = 9 ∧ postSegs (pointing 9 2) = 1
    ∧ postBad (pointing 9 2) = false ∧ recUnit (pointing 9 2) = 2 := by decide +kernel

/-! ## Streams -/

/-- The stream description of `timing` and `shape`, with N packets and a launch offset. -/
def description (n v : Nat) : Bytes :=
  leBytes 4 1 ++ leBytes 4 50 ++ [1, 1] ++ leBytes 4 0 ++ [2, 1] ++ leBytes 2 n ++ leBytes 2 64 ++ [2, 1, 2, 0]
    ++ leBytes 4 5 ++ leBytes 4 v ++ leBytes 8 2000000 ++ leBytes 4 100 ++ leBytes 4 50000
    ++ [16, 2, 7, 0, 4, 0, 9, 0, 15, 10] ++ List.replicate 6 0 ++ List.replicate 192 1

/-- Description fields at their ends. -/
theorem test_meets_OpenTestsFirstFrameAndReservedRate_ranges :
    (goodDescription (description 4 1000) 1000000).isSome = true
    ∧ (goodDescription (description 32768 19999999) 1000000).isSome = true
    ∧ (goodDescription (description 32769 1000) 1000000).isSome = false
    ∧ (goodDescription (description 0 1000) 1000000).isSome = false
    ∧ (goodDescription (description 4 20000000) 1000000).isSome = false
    ∧ (goodDescription (description 4 1000) 1000000).map (·.timing) = some timing
    ∧ (goodDescription (description 4 1000) 1000000).map (·.shape) = some shape := by decide +kernel

/-- Selection times of frames 0 and 1 are 1,951,000 and 21,951,000; the example of R25 with its figures. -/
theorem test_meets_OpenTestsFirstFrameAndReservedRate_rate :
    (1 ≤ timing.pn ∧ 1 ≤ timing.pd) ∧ firstIndex timing 1000 1951000 = 0 ∧ firstIndex timing 1000 1951001 = 1
    ∧ firstIndex { pn := 1001, pd := 60000, mode := .even, epoch := 1000000000, fn0 := 0, fetchLead := 2000000 } 250000
        1010000000 = 1
    ∧ reservedRate timing shape = 298 := by decide +kernel

/-- An OPEN of a slot with its description at 0x7000. -/
def opening (unit : Byte) : Record := record [1, 0, unit, 0, 9, 0, 0, 0, 0, 0x70]

/-- Link A asks for a stream, the read of its description under way. -/
def openState (unit : Byte) (s : State) : State := asking (opening unit) [] s

/-- Every slot but 3 is taken. -/
def crowded : State := { base with streams := (Vector.replicate 32 stream).set 3 StreamRec.blank }

/-- Slot byte, packets of the description, state; status. The contracted rate leaves room for 2,000,000 packets. -/
def openCases : List (Nat × Nat × State × Status) :=
  [(3, 4, base, .ok), (255, 4, crowded, .ok), (32, 4, base, .badRequest), (3, 0, base, .badRequest),
    (3, 4, live, .wrongState), (255, 4, { base with streams := Vector.replicate 32 stream }, .noSlot),
    (3, 32768, base, .noCapacity)]

theorem test_meets_OpenIsJudgedInOrder :
    ∀ x ∈ openCases,
      AtHand (openState (BitVec.ofNat 8 x.1) x.2.2.1) .A (opening (BitVec.ofNat 8 x.1))
        [description x.2.1 1000]
      ∧ recKind (opening (BitVec.ofNat 8 x.1)) = 1
      ∧ rangeInside ((openState (BitVec.ofNat 8 x.1) x.2.2.1).links.get .A)
          (recU64 (opening (BitVec.ofNat 8 x.1)) 8) 256 = true
      ∧ (description x.2.1 1000).length = 256
      ∧ answers (openState (BitVec.ofNat 8 x.1) x.2.2.1)
          (after (.openStream .A (opening (BitVec.ofNat 8 x.1)) [description x.2.1 1000])
            (openState (BitVec.ofNat 8 x.1) x.2.2.1)) = [(.A, .result x.2.2.2)] := by
  have h :
    ∀ x ∈ openCases,
      atHand (openState (BitVec.ofNat 8 x.1) x.2.2.1) .A (opening (BitVec.ofNat 8 x.1))
        [description x.2.1 1000] = true
      ∧ recKind (opening (BitVec.ofNat 8 x.1)) = 1
      ∧ rangeInside ((openState (BitVec.ofNat 8 x.1) x.2.2.1).links.get .A)
          (recU64 (opening (BitVec.ofNat 8 x.1)) 8) 256 = true
      ∧ (description x.2.1 1000).length = 256
      ∧ answers (openState (BitVec.ofNat 8 x.1) x.2.2.1)
          (after (.openStream .A (opening (BitVec.ofNat 8 x.1)) [description x.2.1 1000])
            (openState (BitVec.ofNat 8 x.1) x.2.2.1)) = [(.A, .result x.2.2.2)] := by decide +kernel
  exact fun x hx => ⟨at_hand_of_test (h x hx).1, (h x hx).2⟩

/-- The stream record of an accepted OPEN, its first due time, and the sum. -/
theorem test_open_writes_the_record :
    (after (.openStream .A (opening 3) [description 4 1000]) (openState 3 base)).streams[3]
      = { stream with state := .armed, standby := none, rate := 298, lastSel := none }
    ∧ (after (.openStream .A (opening 3) [description 4 1000]) (openState 3 base)).selectors[3].due
      = some 1951000
    ∧ (after (.openStream .A (opening 3) [description 4 1000]) (openState 3 base)).admission.sum
      = 298 := by decide +kernel

/-- An amendment block for a template of 16 bytes at 0x9000. -/
def block (n : Nat) : Bytes :=
  leBytes 2 n ++ leBytes 2 64 ++ [2, 1, 1, 2] ++ leBytes 4 1000 ++ [16, 2, 7, 0, 4, 0, 9, 0, 15, 10] ++ [0, 0]
    ++ leBytes 8 0x9000 ++ List.replicate 32 0

/-- An AMEND of a slot with its block at 0x7000. -/
def amending (unit : Byte) : Record := record [2, 0, unit, 0, 9, 0, 0, 0, 0, 0x70]

/-- Link A asks for an amendment, the read of its template under way. -/
def amendState (unit : Byte) (n : Nat) (st : StreamRec) : State := asking (amending unit) [block n] (carrying st base)

/-- Slot byte, packets, stream; completions. -/
def amendCases : List (Nat × Nat × StreamRec × List Status) :=
  [(3, 8, stream, []), (32, 8, stream, [.badRequest]), (3, 8, { stream with state := .draining }, [.wrongState]),
    (3, 8, { stream with owner := some .B, standby := some .A }, [.notMember]), (3, 0, stream, [.badRequest]),
    (3, 32768, stream, [.noCapacity]),
    (3, 8, { stream with staged := some { shape := shape, rate := 298, tag := 5, link := .A } }, [.superseded])]

/-- The block read leads to the template's, which is made once and must be complete. -/
theorem test_amend_second_read :
    (after (.amend .A (amending 3) [block 8]) (asking (amending 3) [] live)).outputs = [.requestRead .A 0x9000 16]
    ∧ (after (.amend .A (amending 3) [block 8]) (asking (amending 3) [] live)).links.a.request
      = some { record := some (amending 3), got := [block 8], expiry := 1200000 }
    ∧ after (.amend .A (amending 3) [block 8]) (amendState 3 8 stream) = amendState 3 8 stream
    ∧ (after (.amend .A (amending 3) [block 8, List.replicate 15 1])
        (amendState 3 8 { stream with state := .draining })).links.a.fault = true := by decide +kernel

theorem test_meets_AmendIsStagedOrRefusedInOrder :
    ∀ x ∈ amendCases,
      AtHand (amendState (BitVec.ofNat 8 x.1) x.2.1 x.2.2.1) .A (amending (BitVec.ofNat 8 x.1))
        [block x.2.1, List.replicate 16 1]
      ∧ recKind (amending (BitVec.ofNat 8 x.1)) = 2 ∧ (block x.2.1).length = 64
      ∧ answers (amendState (BitVec.ofNat 8 x.1) x.2.1 x.2.2.1)
          (after (.amend .A (amending (BitVec.ofNat 8 x.1)) [block x.2.1, List.replicate 16 1])
            (amendState (BitVec.ofNat 8 x.1) x.2.1 x.2.2.1)) = x.2.2.2.map fun st => (.A, .result st) := by
  have h :
    ∀ x ∈ amendCases,
      atHand (amendState (BitVec.ofNat 8 x.1) x.2.1 x.2.2.1) .A (amending (BitVec.ofNat 8 x.1))
        [block x.2.1, List.replicate 16 1] = true
      ∧ recKind (amending (BitVec.ofNat 8 x.1)) = 2 ∧ (block x.2.1).length = 64
      ∧ answers (amendState (BitVec.ofNat 8 x.1) x.2.1 x.2.2.1)
          (after (.amend .A (amending (BitVec.ofNat 8 x.1)) [block x.2.1, List.replicate 16 1])
            (amendState (BitVec.ofNat 8 x.1) x.2.1 x.2.2.1)) = x.2.2.2.map fun st => (.A, .result st) := by decide +kernel
  exact fun x hx => ⟨at_hand_of_test (h x hx).1, (h x hx).2⟩

/-- What is staged, and the sum with the larger rate. -/
theorem test_amend_stages :
    (after (.amend .A (amending 3) [block 8, List.replicate 16 1]) (amendState 3 8 stream)).streams[3].staged
      = some { shape := { shape with n := 8 }, rate := 496, tag := 9, link := .A }
    ∧ (after (.amend .A (amending 3) [block 8, List.replicate 16 1]) (amendState 3 8 stream)).admission.sum = 496 := by
  decide +kernel

/-- A CLOSE of slot 3. -/
def closing (mode : Byte) : Record := record [3, 0, 3, 0, 9, 0, 0, 0, mode]

/-- The command of a CLOSE. -/
def closeCommand (mode : Byte) : Instr :=
  if mode = 2 then .closeImmediate .A (closing mode) else .closeGraceful .A (closing mode)

/-- Link A asks for a CLOSE while a packet is on its way. -/
def closeState (mode : Byte) (st : StreamRec) : State :=
  asking (closing mode) [] (carrying st { base with uplink := { base.uplink with tx := .sending } })

/-- Mode, stream; state after, completions. -/
def closeCases : List (Nat × StreamRec × StreamState × List Status) :=
  [(0, stream, .running, [.badRequest]), (1, stream, .draining, []), (1, { stream with state := .armed }, .closed, [.ok]),
    (1, { stream with state := .draining }, .draining, [.wrongState]),
    (1, { stream with owner := some .B, standby := some .A }, .running, [.notMember]),
    (1, { stream with state := .holding, owner := none, standby := none }, .closed, [.ok]),
    (2, stream, .closed, [.ok]), (2, { stream with state := .draining }, .closed, [.ok]),
    (2, { stream with state := .holding, owner := none, standby := none }, .closed, [.ok]),
    (2, { stream with state := .armed }, .closed, [.ok]), (2, StreamRec.blank, .closed, [.wrongState]),
    (2, { stream with owner := some .B, standby := some .A }, .running, [.notMember])]

/-- The hypotheses of GracefulCloseDrainsOrCloses and ImmediateCloseEndsTheStream. -/
theorem test_meets_CloseStatements :
    ∀ x ∈ closeCases,
      Ready (closeState (BitVec.ofNat 8 x.1) x.2.1) .A (closing (BitVec.ofNat 8 x.1)) []
      ∧ recKind (closing (BitVec.ofNat 8 x.1)) = 3 ∧ recAction (closing (BitVec.ofNat 8 x.1)) = x.1
      ∧ AdmissionInv (closeState (BitVec.ofNat 8 x.1) x.2.1)
      ∧ (after (closeCommand (BitVec.ofNat 8 x.1)) (closeState (BitVec.ofNat 8 x.1) x.2.1)).streams[3].state = x.2.2.1
      ∧ answers (closeState (BitVec.ofNat 8 x.1) x.2.1)
          (after (closeCommand (BitVec.ofNat 8 x.1)) (closeState (BitVec.ofNat 8 x.1) x.2.1))
        = x.2.2.2.map fun st => (.A, .result st) := by
  unfold Ready AdmissionInv
  decide +kernel

/-- A graceful CLOSE of a RUNNING stream with nothing queued keeps every trap and counter. -/
theorem test_close_keeps_traps :
    (after (.closeGraceful .A (closing 1)) (asking (closing 1) [] { live with
      traps := { live.traps with device := 8, stream := live.traps.stream.set 3 3 }
      uplink := { live.uplink with tx := .down } })).traps
      = { live.traps with device := 8, stream := live.traps.stream.set 3 3 } := by decide +kernel

/-- With the transmitter IDLE the END of a graceful CLOSE leaves at once, closes the slot and answers the CLOSE (R34). -/
theorem test_close_sends_end :
    (after (.closeGraceful .A (closing 1)) (asking (closing 1) [] live)).streams[3].state = .closed
    ∧ (after (.closeGraceful .A (closing 1)) (asking (closing 1) [] live)).uplink.tx = .sending
    ∧ answers (asking (closing 1) [] live) (after (.closeGraceful .A (closing 1)) (asking (closing 1) [] live))
      = [(.A, .result .ok)] := by decide +kernel

/-- A STANDBY request of slot 3. -/
def standing (action : Byte) : Record := record [5, 0, 3, 0, 9, 0, 0, 0, action]

/-- The command of a STANDBY request. -/
def standbyCommand (action : Byte) : Instr :=
  if action = 2 then .standbyLeave .A (standing action) else .standbyJoin .A (standing action)

/-- Link A asks to stand by or to leave. -/
def standbyState (action : Byte) (st : StreamRec) : State := asking (standing action) [] (carrying st base)

/-- Action, owner and standby, state; standby after, completions. -/
def standbyCases : List (Nat × StreamRec × Option Link × List (Link × CompletionKind)) :=
  [(0, stream, some .B, [(.A, .result .badRequest)]), (1, stream, some .B, [(.A, .result .wrongState)]),
    (1, { stream with state := .draining }, some .B, [(.A, .result .wrongState)]),
    (1, { stream with owner := some .B, standby := some .A }, some .A, [(.A, .result .ok)]),
    (1, { stream with owner := some .B, standby := none }, some .A, [(.B, .notice .membership), (.A, .result .ok)]),
    (2, { stream with owner := some .B, standby := some .A }, none, [(.B, .notice .membership), (.A, .result .ok)]),
    (2, stream, some .B, [(.A, .result .notMember)]),
    (2, { stream with state := .holding, owner := none, standby := none }, none, [(.A, .result .wrongState)])]

theorem test_meets_StandbyJoinsAndLeaves :
    ∀ x ∈ standbyCases,
      Ready (standbyState (BitVec.ofNat 8 x.1) x.2.1) .A (standing (BitVec.ofNat 8 x.1)) []
      ∧ recKind (standing (BitVec.ofNat 8 x.1)) = 5 ∧ recAction (standing (BitVec.ofNat 8 x.1)) = x.1
      ∧ HasRoom (standbyState (BitVec.ofNat 8 x.1) x.2.1) (otherLink .A)
      ∧ (after (standbyCommand (BitVec.ofNat 8 x.1)) (standbyState (BitVec.ofNat 8 x.1) x.2.1)).streams[3].standby
        = x.2.2.1
      ∧ answers (standbyState (BitVec.ofNat 8 x.1) x.2.1)
          (after (standbyCommand (BitVec.ofNat 8 x.1)) (standbyState (BitVec.ofNat 8 x.1) x.2.1)) = x.2.2.2 := by
  unfold Ready HasRoom
  decide +kernel

/-- An ADOPT of slot 3. -/
def adopting : Record := record [4, 0, 3, 0, 9]

/-- Link A asks to adopt. -/
def adoptState (st : StreamRec) : State := asking adopting [] (carrying st base)

/-- Stream; owner and standby after, completions. -/
def adoptCases : List (StreamRec × Option Link × Option Link × List (Link × CompletionKind)) :=
  [(stream, some .A, some .B, [(.A, .result .wrongState)]),
    ({ stream with owner := some .B, standby := some .A }, some .A, some .B, [(.B, .notice .membership), (.A, .result .ok)]),
    ({ stream with owner := some .B, standby := none }, some .B, none, [(.A, .result .notMember)]),
    ({ stream with state := .holding, owner := none, standby := none }, some .A, none,
      [(.B, .notice .membership), (.A, .result .ok)]),
    ({ stream with state := .draining }, some .A, some .B, [(.A, .result .wrongState)])]

theorem test_meets_AdoptTakesTheStream :
    ∀ x ∈ adoptCases, Ready (adoptState x.1) .A adopting [] ∧ recKind adopting = 4
      ∧ HasRoom (adoptState x.1) (otherLink .A)
      ∧ (after (.adopt .A adopting) (adoptState x.1)).streams[3].owner = x.2.1
      ∧ (after (.adopt .A adopting) (adoptState x.1)).streams[3].standby = x.2.2.1
      ∧ answers (adoptState x.1) (after (.adopt .A adopting) (adoptState x.1)) = x.2.2.2 := by
  unfold Ready HasRoom
  decide +kernel

/-! ## Frame queues -/

/-- A SUBMIT of slot 3 with one inline segment at 0x8000. -/
def submitting (fn : BitVec 32) (len segs : Nat) : Record :=
  record ([6, 1, 3, 0, 7, 0, 0, 0] ++ leBytes 4 fn.toNat ++ leBytes 4 len ++ [BitVec.ofNat 8 segs, 0, 0, 0, 0, 0, 0, 0]
    ++ leBytes 8 0x8000)

/-- Frame number, length, segments, state; status, or none for a deferred result. -/
def submitCases : List (BitVec 32 × Nat × Nat × State × Option Status) :=
  [(101, 100, 1, live, none), (101, 100, 2, live, some .badRequest), (101, 0, 1, live, some .badRequest),
    (101, 100, 1, carrying { stream with state := .draining } base, some .wrongState),
    (101, 100, 1, carrying { stream with owner := some .B, standby := none } base, some .notMember),
    (101, 257, 1, live, some .tooLong), (100, 100, 1, live, some .tooLate), (165, 100, 1, live, none),
    (166, 100, 1, live, some .tooEarly), (101, 100, 1, queued .A [frame 101 .A] live, some .order),
    (105, 100, 1, queued .A [frame 101 .A, frame 102 .A, frame 103 .A, frame 104 .A] live, some .queueFull),
    (100, 100, 1, carrying { stream with state := .armed, lastSel := none } base, none),
    (99, 100, 1, carrying { stream with state := .armed, lastSel := none } base, some .tooLate)]

/-- The hypotheses of SubmitIsQueuedOrRefused and, on the records made, of SubmitTestsAreJudgedInOrder. -/
theorem test_meets_SubmitStatements :
    ∀ x ∈ submitCases,
      AtHand (waiting x.2.2.2.1) .A (submitting x.1 x.2.1 x.2.2.1) []
      ∧ recKind (submitting x.1 x.2.1 x.2.2.1) = 6 ∧ recInline (submitting x.1 x.2.1 x.2.2.1) = true
      ∧ answers (waiting x.2.2.2.1)
          (after (.submit .A (submitting x.1 x.2.1 x.2.2.1) []) (waiting x.2.2.2.1))
        = (x.2.2.2.2.map fun st => (Link.A, CompletionKind.result st)).toList := by
  have h :
    ∀ x ∈ submitCases,
      atHand (waiting x.2.2.2.1) .A (submitting x.1 x.2.1 x.2.2.1) [] = true
      ∧ recKind (submitting x.1 x.2.1 x.2.2.1) = 6 ∧ recInline (submitting x.1 x.2.1 x.2.2.1) = true
      ∧ answers (waiting x.2.2.2.1)
          (after (.submit .A (submitting x.1 x.2.1 x.2.2.1) []) (waiting x.2.2.2.1))
        = (x.2.2.2.2.map fun st => (Link.A, CompletionKind.result st)).toList := by decide +kernel
  exact fun x hx => ⟨at_hand_of_test (h x hx).1, (h x hx).2⟩

/-- The record that joins the queue. -/
theorem test_submit_queues :
    queueOf (after (.submit .A (submitting 101 100 1) []) (waiting live)) .A 3
      = [frame 101 .A] := by decide +kernel

/-- A CANCEL of slot 3. -/
def cancelling (scope : Byte) (fn : BitVec 32) : Record :=
  record ([7, 0, 3, 0, 9, 0, 0, 0] ++ leBytes 4 fn.toNat ++ [scope])

/-- The command of a CANCEL. -/
def cancelCommand (scope : Byte) (fn : BitVec 32) : Instr :=
  if scope = 2 then .cancelThrough .A (cancelling scope fn) else .cancelOne .A (cancelling scope fn)

/-- Link A cancels with frames 101 and 103 queued. -/
def cancelState (scope : Byte) (fn : BitVec 32) : State :=
  asking (cancelling scope fn) [] (queued .A [frame 101 .A, frame 103 .A] live)

/-- Scope, frame number; frames left, completions. -/
theorem test_meets_CancelRemovesQueuedRecords :
    ∀ x ∈ ([(0, 101, [101, 103], [.badRequest]), (1, 101, [103], [.cancelled, .ok]), (1, 102, [101, 103], [.notFound]),
        (2, 102, [103], [.cancelled, .ok]), (2, 103, [], [.cancelled, .cancelled, .ok]), (2, 100, [101, 103], [.notFound])]
        : List (Nat × BitVec 32 × List (BitVec 32) × List Status)),
      Ready (cancelState (BitVec.ofNat 8 x.1) x.2.1) .A (cancelling (BitVec.ofNat 8 x.1) x.2.1) []
      ∧ recKind (cancelling (BitVec.ofNat 8 x.1) x.2.1) = 7 ∧ recScope (cancelling (BitVec.ofNat 8 x.1) x.2.1) = x.1
      ∧ (queueOf (after (cancelCommand (BitVec.ofNat 8 x.1) x.2.1) (cancelState (BitVec.ofNat 8 x.1) x.2.1)) .A 3).map
          (·.fn) = x.2.2.1
      ∧ answers (cancelState (BitVec.ofNat 8 x.1) x.2.1)
          (after (cancelCommand (BitVec.ofNat 8 x.1) x.2.1) (cancelState (BitVec.ofNat 8 x.1) x.2.1))
        = x.2.2.2.map fun st => (.A, .result st) := by
  unfold Ready
  decide +kernel

/-! ## Selection and the schedule -/

/-- Slot 3 as `live` has it, a packet on its way, with records queued on A and on B; frame 1, numbered 101, is due. -/
def due (st : StreamRec) (a b : List FrameRecord) (marks : PerLink Bool) : State :=
  let s := queued .A a (queued .B b (carrying st { base with uplink := { base.uplink with tx := .sending } }))
  { s with selectors := s.selectors.set 3 { Selector.initial with due := some 1000000, marks := marks } }

/-- Queues and marks; record kept by the group, preferred source, miss streak, completions. -/
def dueCases : List (StreamRec × List FrameRecord × List FrameRecord × PerLink Bool × Option (Link × Bool) × Role × Nat
    × List (Link × CompletionKind)) :=
  [(stream, [frame 101 .A], [], ⟨false, false⟩, some (.A, false), .owner, 0, []),
    (stream, [frame 99 .A, frame 101 .A], [frame 101 .B], ⟨false, false⟩, some (.A, false), .owner, 0,
      [(.A, .result .stale), (.B, .result .shadowed)]),
    (stream, [], [frame 101 .B], ⟨false, false⟩, some (.B, true), .standby, 0,
      [(.A, .notice .switch), (.B, .notice .switch)]),
    (stream, [frame 101 .A], [], ⟨true, false⟩, some (.A, false), .owner, 1, []),
    (stream, [], [], ⟨false, false⟩, none, .owner, 1, [(.A, .notice .trap), (.B, .notice .trap)]),
    (stream, [{ frame 101 .A with len := 257 }], [], ⟨false, false⟩, none, .owner, 1,
      [(.A, .result .tooLong), (.A, .notice .trap), (.B, .notice .trap)])]

/-- The frame that the newest group of slot 3 holds. -/
def heldFrame (s : State) : Option (Link × Bool) :=
  match s.scheds[3].groups.getLast? with
  | none => none
  | some g =>
    match g.kind with
    | .frame f => some (f.record.link, f.fromStandby)
    | _ => none

theorem test_meets_SelectionSendsOrRepeats :
    ∀ x ∈ dueCases,
      eventDue (due x.1 x.2.1 x.2.2.1 x.2.2.2.1) 3 = true ∧ heldCount (due x.1 x.2.1 x.2.2.1 x.2.2.2.1) 3 < 2
      ∧ heldFrame (after (.frameSelectionEvent 3) (due x.1 x.2.1 x.2.2.1 x.2.2.2.1)) = x.2.2.2.2.1
      ∧ (after (.frameSelectionEvent 3) (due x.1 x.2.1 x.2.2.1 x.2.2.2.1)).selectors[3].preferred = x.2.2.2.2.2.1
      ∧ (after (.frameSelectionEvent 3) (due x.1 x.2.1 x.2.2.1 x.2.2.2.1)).selectors[3].miss = x.2.2.2.2.2.2.1
      ∧ (after (.frameSelectionEvent 3) (due x.1 x.2.1 x.2.2.1 x.2.2.2.1)).selectors[3].due = some 41951000
      ∧ (after (.frameSelectionEvent 3) (due x.1 x.2.1 x.2.2.1 x.2.2.2.1)).streams[3].lastSel = some 101
      ∧ answers (due x.1 x.2.1 x.2.2.1 x.2.2.2.1)
          (after (.frameSelectionEvent 3) (due x.1 x.2.1 x.2.2.1 x.2.2.2.1)) = x.2.2.2.2.2.2.2 := by decide +kernel

/-- The counters of the selection event's outcome (R99, R167): sent from the preferred source, filled in, repeated absent,
SHADOWED, STARVED, flips, returns. -/
def outcomes (s : State) : List (BitVec 32) :=
  let c := (after (.frameSelectionEvent 3) s).traps.counters[3]
  [c.sentPreferred, c.filledIn, c.repeatedAbsent, c.framesShadowed, c.framesStarved, c.flips, c.returns]

/-- Both present; a fill-in that flips; absent; the preferred candidate starved; a return to the owner. -/
theorem test_outcomes :
    outcomes (due stream [frame 101 .A] [frame 101 .B] ⟨false, false⟩) = [1, 0, 0, 1, 0, 0, 0]
    ∧ outcomes (due stream [] [frame 101 .B] ⟨false, false⟩) = [0, 1, 0, 0, 0, 1, 0]
    ∧ outcomes (due stream [] [] ⟨false, false⟩) = [0, 0, 1, 0, 0, 0, 0]
    ∧ outcomes { due stream [frame 101 .A] [frame 101 .B] ⟨false, false⟩ with staging := { free := [], mem := [] } }
      = [0, 0, 0, 1, 1, 0, 0]
    ∧ outcomes { due stream [frame 101 .A] [] ⟨false, false⟩ with
        selectors := (due stream [] [] ⟨false, false⟩).selectors.set 3
          { Selector.initial with due := some 1000000, preferred := .standby, present := 1 } } = [1, 0, 0, 0, 0, 0, 1] := by
  decide +kernel

/-- All hypotheses of SelectionSendsOrRepeats together: A's queue has a stale record and the candidate, B's the candidate
alone. -/
theorem test_meets_SelectionSendsOrRepeats_together :
    ∃ (s : State) (old kept : Link → List FrameRecord), EventAt 3 s stream shape 1 1000 5000000 .A 101
      ∧ (∀ m ∈ memberLinks stream, EventQueue 3 s shape 101 m (old m) [] (kept m) none true)
      ∧ (∀ m, isMember stream m = false → (fun _ => true) m = false)
      ∧ (1 + 1 < 2 ^ 40) ∧ frameStart stream.timing (1 + 1) + glideTo 1000 5000000 shape.vStar ≤ 2 ^ 63
      ∧ nowOf s ≤ (frameStart stream.timing 1 + 1000 + shape.gracePk * 5000000 : Nat) ∧ heldCount s 3 < 2 := by
  refine ⟨due stream [frame 99 .A, frame 101 .A] [frame 101 .B] ⟨false, false⟩,
    fun m => if m = .A then [frame 99 .A] else [], fun m => [frame 101 m], ?_, fun m _ => ?_, fun m => ?_, by decide,
    by decide +kernel, by decide +kernel, by decide +kernel⟩
  · exact { record := rfl, state := .inr rfl, owner := rfl, standby := .inr rfl
            due := ⟨1000000, by decide +kernel, by decide +kernel⟩, shape := rfl
            place := .inr ⟨{ offset := 1000, interval := 5000000, index := 0 }, by decide +kernel, rfl, by decide +kernel⟩
            interval := by decide +kernel, number := by decide +kernel, payload := by decide }
  · cases m
    · exact { queue := by decide +kernel, stale := by decide +kernel, refused := .inl ⟨rfl, rfl⟩
              candidate := fun _ => ⟨by decide +kernel, frame 101 .A, [], rfl, by decide +kernel⟩, absent := nofun }
    · exact { queue := by decide +kernel, stale := by decide +kernel, refused := .inl ⟨rfl, rfl⟩
              candidate := fun _ => ⟨by decide +kernel, frame 101 .B, [], rfl, by decide +kernel⟩, absent := nofun }
  · cases m <;> decide

/-- The notices of a flip, of a return and of an absent frame, where nothing stale waits and both rings have room: link,
kind, frame number, tag, preferred source after, link sent, reason (R103, R164). -/
def noticesOf (s : State) : List (Link × CompletionKind × List Nat) :=
  s.outputs.filterMap fun o =>
    match o with
    | .completion l _ c => some (l, c.kind, [c.fn.toNat, c.tag.toNat, c.b27.toNat, c.b28.toNat, c.b29.toNat])
    | _ => none

/-- A record for frame 101 that is too long, and one outside every window. -/
def longFrame (l : Link) : FrameRecord := { frame 101 l with len := 257 }
def strayFrame (l : Link) : FrameRecord := { frame 101 l with segments := [{ addr := BitVec.allOnes 64, len := 100 }] }

/-- Heads that the tests of R93 refuse, on A behind a stale record: their links are absent and their RESULTs come before
MISS, A's after its STALE. -/
theorem test_meets_SelectionSendsOrRepeats_refused :
    ∀ s, s = due stream [frame 99 .A, longFrame .A, frame 102 .A] [strayFrame .B] ⟨false, false⟩ →
      EventQueue 3 s shape 101 .A [frame 99 .A] [longFrame .A] [frame 102 .A] (some .tooLong) false
      ∧ EventQueue 3 s shape 101 .B [] [strayFrame .B] [] (some .window) false
      ∧ (queueOf (after (.frameSelectionEvent 3) s) .A 3).map (·.fn) = [102]
      ∧ answers s (after (.frameSelectionEvent 3) s) = [(.A, .result .stale), (.A, .result .tooLong)
        , (.B, .result .window), (.A, .notice .trap), (.B, .notice .trap)] := by
  rintro s rfl
  refine ⟨?_, ?_, by decide +kernel, by decide +kernel⟩
  · exact { queue := by decide +kernel, stale := by decide +kernel
            refused := .inr ⟨rfl, by decide +kernel, _, rfl, rfl, .inl ⟨rfl, by decide +kernel⟩⟩
            candidate := nofun, absent := fun _ => .inr ⟨_, [], rfl, by decide +kernel⟩ }
  · exact { queue := by decide +kernel, stale := by decide +kernel
            refused := .inr ⟨rfl, by decide +kernel, _, rfl, rfl, .inr ⟨rfl, by decide +kernel, by decide +kernel⟩⟩
            candidate := nofun, absent := fun _ => .inl rfl }

/-- Slot 3 with groups in its list, its event for frame 1 due at a station time. -/
def dueWith (gs : List Group) (time : BitVec 64) (a b : List FrameRecord) : State :=
  let s := due stream a b ⟨false, false⟩
  { s with scheds := s.scheds.set 3 { s.scheds[3] with groups := gs }, clock := { s.clock with time := time } }

/-- A FRAME group of A in block 9, one of its two packets sent, and a REPEAT group. -/
def twoHeld : List Group :=
  let g := frameGroup timing shape 0 1000 (frame 100 .A) false [9]
  [{ g with entries := (g.entries.zip [.sent, .pending]).map fun x => { x.1 with done := x.2 } }
    , repeatGroup timing shape 0 1000]

/-- Slot 3 at the last frame whose successor's anchor fits 2^63 ns: its event is due. -/
def lastFrame : State :=
  let s := due { stream with timing := { timing with fn0 := 101 - BitVec.ofNat 32 461168601842 } } [frame 101 .A, frame 102 .A]
    [] ⟨false, false⟩
  { s with
    scheds := s.scheds.set 3 { glide := some { offset := 1000, interval := 5000000, index := 461168601841 }, groups := [] }
    clock := { s.clock with time := 9223372036000000000 } }

/-- All hypotheses of SelectionAtItsLimits together, at each limit: two held frames of which the older is removed, a
frame whose deadline has passed with nothing before it, and the end of the timetable; then what happens there. -/
theorem test_meets_SelectionAtItsLimits :
    (∃ s rest g, s = dueWith twoHeld 1000000 [frame 101 .A] [] ∧ EventAt 3 s stream shape 1 1000 5000000 .A 101
      ∧ EventQueue 3 s shape 101 .A [] [] [frame 101 .A] none true ∧ EventQueue 3 s shape 101 .B [] [] [] none false
      ∧ OlderLeaves 3 s rest ([0, 1, 2, 3, 4, 5] ++ [9]) (some g) ∧ headOf rest ≠ none
      ∧ (groupsOf (after (.frameSelectionEvent 3) s) 3).map (·.fn) = [100, 101]
      ∧ (after (.frameSelectionEvent 3) s).staging.free = [1, 2, 3, 4, 5, 9]
      ∧ answers s (after (.frameSelectionEvent 3) s)
        = [(.A, .notice .trap), (.B, .notice .trap), (.A, .result .partialSent)])
    ∧ (∃ s, s = dueWith [] 32001001 [] [] ∧ EventAt 3 s stream shape 1 1000 5000000 .A 101
      ∧ EventQueue 3 s shape 101 .A [] [] [] none false ∧ EventQueue 3 s shape 101 .B [] [] [] none false
      ∧ OlderLeaves 3 s [] [0, 1, 2, 3, 4, 5] none
      ∧ (frameStart timing 1 + 1000 + shape.gracePk * 5000000 : Nat) < nowOf s
      ∧ groupsOf (after (.frameSelectionEvent 3) s) 3 = []
      ∧ (after (.frameSelectionEvent 3) s).traps.counters[3].dropsLate = 1
      ∧ (noticesOf (after (.frameSelectionEvent 3) s)).map (fun x => x.2.2[1]?) = [some 17, some 17, some 16, some 16])
    ∧ (2 ^ 63 < frameStart timing 461168601843 + 1000 ∧ eventDue lastFrame 3 = true
      ∧ (after (.frameSelectionEvent 3) lastFrame).streams[3].state = .draining
      ∧ (after (.frameSelectionEvent 3) lastFrame).selectors[3].due = none
      ∧ heldCount (after (.frameSelectionEvent 3) lastFrame) 3 = 1
      ∧ answers lastFrame (after (.frameSelectionEvent 3) lastFrame) = [(.A, .result .discarded)]) := by
  have at3 (s : State) (hs : s.streams[3] = stream ∧ s.selectors[3].due = some 1000000 ∧ (1000000 : Int) ≤ nowOf s
      ∧ s.scheds[3].glide = some { offset := 1000, interval := 5000000, index := 0 }) :
      EventAt 3 s stream shape 1 1000 5000000 .A 101 :=
    { record := hs.1.symm, state := .inr rfl, owner := rfl, standby := .inr rfl
      due := ⟨1000000, hs.2.1, hs.2.2.1⟩, shape := rfl
      place := .inr ⟨_, hs.2.2.2, rfl, by decide +kernel⟩
      interval := by decide +kernel, number := by decide +kernel, payload := by decide }
  have empty (s : State) (m : Link) (h : queueOf s m 3 = []) : EventQueue 3 s shape 101 m [] [] [] none false :=
    { queue := h, stale := nofun, refused := .inl ⟨rfl, rfl⟩, candidate := nofun, absent := fun _ => .inl rfl }
  refine ⟨⟨_, twoHeld.tail, twoHeld.head (by decide), rfl, at3 _ (by decide +kernel), ?_, empty _ _ (by decide +kernel),
    .inr ⟨by decide +kernel, [], _, twoHeld.tail, by decide +kernel, rfl, rfl, nofun, by decide +kernel, by decide +kernel,
      ?_⟩, by decide +kernel, by decide +kernel, by decide +kernel, by decide +kernel⟩,
    ⟨_, rfl, at3 _ (by decide +kernel), empty _ _ (by decide +kernel), empty _ _ (by decide +kernel),
      .inl (by decide +kernel), by decide +kernel, by decide +kernel, by decide +kernel, by decide +kernel⟩,
    by decide +kernel⟩
  · exact { queue := by decide +kernel, stale := nofun, refused := .inl ⟨rfl, rfl⟩
            candidate := fun _ => ⟨by decide +kernel, _, [], rfl, by decide +kernel⟩, absent := nofun }
  · intro h e hh
    have : headOf twoHeld.tail = some (h, e) → e.arrival ≠ .never ∧ (1000000 : Int) ≤ e.deadline := by
      intro eq
      have e2 : (headOf twoHeld.tail).map (·.2) = some e := by rw [eq]; rfl
      have : (headOf twoHeld.tail).map (·.2)
        = some { kind := .markRepeat, index := 0, sched := 2001000, elig := -2999000, deadline := 12001000, place := 0
                 len := 0, arrival := .arrived, done := .pending } := by decide +kernel
      rw [this] at e2
      cases e2
      decide
    exact this hh

/-- The figures of SelectionSendsOrRepeats for those states: k, v, d, the frame number and the ranges. -/
theorem test_selection_figures :
    glideTo 1000 5000000 shape.vStar = 1000 ∧ span timing 1 / shape.n = 5000000 ∧ timing.fn0 + BitVec.ofNat 32 1 = 101
    ∧ frameStart timing 2 + glideTo 1000 5000000 shape.vStar ≤ 2 ^ 63
    ∧ (1000000 : Int) ≤ (frameStart timing 1 + 1000 + shape.gracePk * 5000000 : Nat)
    ∧ newer32 101 (frame 99 .A).fn = true ∧ recordTooLong shape (frame 101 .A) = false
    ∧ piecesInside upLink ((frame 101 .A).segments ++ (frame 101 .A).ancillary) = true := by decide +kernel

/-- A flip, a return and an absent frame over queues with nothing stale; what their notices say. -/
def noticeCases : List (State × CompletionKind × List Nat) :=
  [(due stream [] [frame 101 .B] ⟨false, false⟩, .notice .switch, [101, 0, 2, 2, 1]),
    ({ due stream [frame 101 .A] [] ⟨false, false⟩ with
        selectors := (due stream [] [] ⟨false, false⟩).selectors.set 3
          { Selector.initial with due := some 1000000, preferred := .standby, present := 1 } },
      .notice .switch, [101, 0, 1, 1, 2]),
    (due stream [] [] ⟨false, false⟩, .notice .trap, [101, 17, 0, 0, 0])]

theorem test_meets_SelectionSendsOrRepeats_notices :
    ∀ x ∈ noticeCases,
      (HasRoom x.1 .A ∧ HasRoom x.1 .B ∧ streamTrapSet x.1 3 .miss = false)
      ∧ noticesOf (after (.frameSelectionEvent 3) x.1) = [(.A, x.2.1, x.2.2), (.B, x.2.1, x.2.2)] := by
  have room : ∀ x ∈ noticeCases, (x.1.links.a.up && !ringFull x.1.links.a && x.1.links.b.up && !ringFull x.1.links.b
      && !streamTrapSet x.1 3 .miss) = true := by decide +kernel
  have said : ∀ x ∈ noticeCases, noticesOf (after (.frameSelectionEvent 3) x.1) = [(.A, x.2.1, x.2.2), (.B, x.2.1, x.2.2)] := by
    decide +kernel
  refine fun x hx => ⟨?_, said x hx⟩
  have := room x hx
  simp only [Bool.and_eq_true, Bool.not_eq_true'] at this
  exact ⟨⟨this.1.1.1.1, this.1.1.1.2⟩, ⟨this.1.1.2, this.1.2⟩, this.2⟩

/-- A HOLDING stream with frames left to repeat, and one with none; a slot whose event is not due. -/
theorem test_meets_HoldingRepeatsThenEnds :
    ∀ x ∈ ([(4, .holding, 1), (5, .closed, 0)] : List (Nat × StreamState × Nat)),
      eventDue (due { stream with state := .holding, owner := none, standby := none, holdCount := x.1 } [] [] ⟨false, false⟩)
        3 = true
      ∧ (after (.frameSelectionEvent 3)
          (due { stream with state := .holding, owner := none, standby := none, holdCount := x.1 } [] [] ⟨false, false⟩)
        ).streams[3].state = x.2.1
      ∧ heldCount (after (.frameSelectionEvent 3)
          (due { stream with state := .holding, owner := none, standby := none, holdCount := x.1 } [] [] ⟨false, false⟩))
        3 = x.2.2 := by decide +kernel

/-- No event falls: not due, none, DRAINING, CLOSED. -/
theorem test_meets_HoldingRepeatsThenEnds_none :
    ∀ s ∈ [{ live with clock := { live.clock with time := 899999 } }, { live with selectors := State.reset.selectors }
        , carrying { stream with state := .draining } base, carrying { stream with state := .closed } base],
      after (.frameSelectionEvent 3) s = finish s s := by decide +kernel

/-- A HOLDING slot 3 with groups in its list, its event due at a station time. -/
def holdingWith (gs : List Group) (time : BitVec 64) : State :=
  let s := dueWith gs time [] []
  { s with streams := s.streams.set 3 { stream with state := .holding, owner := none, standby := none, holdCount := 4 } }

/-- All hypotheses of HoldingRepeatsThenEnds together: the frame of index 1 falls due and is not past; with two held
frames of which the older is removed, and with its deadline passed. -/
theorem test_meets_HoldingRepeatsThenEnds_together :
    ∀ x ∈ ([([], 1000000, 1, 0), (twoHeld, 1000000, 2, 1), ([], 32001001, 0, 1)] : List (List Group × BitVec 64 × Nat × BitVec 32)),
      ∀ s, s = holdingWith x.1 x.2.1 → s.scheds[3].glide = some { offset := 1000, interval := 5000000, index := 0 }
      ∧ s.selectors[3].due = some 1000000 ∧ (1000000 : Int) ≤ nowOf s ∧ s.streams[3].state = .holding
      ∧ s.streams[3].holdCount < s.streams[3].failover.holdFrames
      ∧ ¬ (2 ^ 40 ≤ 1 + 1 ∨ 2 ^ 63 < frameStart timing (1 + 1) + glideTo 1000 5000000 shape.vStar)
      ∧ heldCount (after (.frameSelectionEvent 3) s) 3 = x.2.2.1
      ∧ (after (.frameSelectionEvent 3) s).traps.counters[3].dropsLate = x.2.2.2 := by
  rintro x hx s rfl
  revert x
  decide +kernel

/-- A HOLDING stream at its hold_frames with a FRAME group of A, half of it sent, and a REPEAT group. -/
def holdingEnd : State :=
  let s := holdingWith twoHeld 1000000
  let streams := s.streams.set 3 { s.streams[3] with holdCount := 5 }
  { s with streams := streams, admission := { sum := claimSum streams s.store.active.floor, oversub := false } }

/-- It ends: the frame's RESULT, then MEMBERSHIP with state CLOSED, no members and preference OWNER on both links (R46): link,
kind, slot byte, packets sent and dropped, bytes 26 to 29. -/
theorem test_meets_HoldingRepeatsThenEnds_end :
    AdmissionInv holdingEnd
    ∧ ((after (.frameSelectionEvent 3) holdingEnd).outputs.filterMap fun o =>
        match o with
        | .completion l _ c => some (l, c.kind, c.unit, [c.sent.toNat, c.dropped.toNat], [c.b26, c.b27, c.b28, c.b29])
        | _ => none)
      = [(.A, .result .partialSent, 3, [1, 1], [0, 0, 0, 0]), (.A, .notice .membership, 3, [0, 0], [0, 0, 0, 1]),
        (.B, .notice .membership, 3, [0, 0], [0, 0, 0, 1])]
    ∧ (after (.frameSelectionEvent 3) holdingEnd).traps.counters[3].dropsClosed = 2 := by
  unfold AdmissionInv
  decide +kernel

/-- A mark without presence, an absence and a fill-in that flips. -/
theorem test_meets_SelectionTablesAndGlide :
    (∀ m : Link, (fun _ => false) m = true → (fun _ => true) m = true)
    ∧ choose (some .A) (some .B) (fun _ => true) (fun _ => false) = .preferred .A false
    ∧ choose (some .A) (some .B) (fun l => l == .B) (fun l => l == .B) = .fillIn .B
    ∧ (afterChoice 3 (.fillIn .B) { Selector.initial with miss := 2 }).2 = true
    ∧ (afterChoice 3 (.fillIn .B) { Selector.initial with miss := 1 }).2 = false
    ∧ (steady 2 true { Selector.initial with preferred := .standby, present := 1 }).2 = true
    ∧ glideTo 1000 10 1005 = 1005 ∧ glideTo 1000 10 1006 = 1005 ∧ glideTo 1000 10 900 = 995 :=
  ⟨fun _ h => by simp at h, by decide +kernel⟩

/-- The record of the schedule's tests: 100 bytes of video in two packets and an ancillary item of 10 bytes. -/
def twoPackets : FrameRecord := { frame 101 .A with ancillary := [{ addr := 0x9000, len := 10 }] }

/-- Entries of its group in order: packet 0 and the item at the anchor, packet 1 half the frame later. -/
theorem test_meets_FrameGroupAndReadPlanAreComplete :
    1 ≤ twoPackets.len ∧ 1 ≤ shape.p ∧ (shape.placement = .gap → timing.mode ≠ .even)
    ∧ (frameGroup timing shape 1 1000 twoPackets false [0]).entries.map (fun e => (e.kind, e.index, e.sched, e.place, e.len))
      = [(.live, 0, 22001000, 10, 64), (.anc, 0, 22001000, 0, 10), (.live, 1, 32001000, 74, 36)]
    ∧ { frameGroup timing shape 1 1000 twoPackets true [0, 7] with entries := [] }
      = { kind := .frame { record := twoPackets, fromStandby := true, nf := 2, af := 1, blocks := [some 0, some 7], got := []
                           failed := false, lateness := 0 }
          index := 1, fn := 101, interval := 5000000, template := template, entries := [] }
    ∧ repeatGroup timing shape 1 1000
      = { kind := .repeatMark, index := 1, fn := 101, interval := 5000000, template := template
          entries := [{ kind := .markRepeat, index := 0, sched := 22001000, elig := 17001000, deadline := 32001000
                        place := 0, len := 0, arrival := .arrived, done := .pending }] }
    ∧ (framePlan { twoPackets with len := 5000, segments := [{ addr := 0x8000, len := 5000 }] }).map
        (fun r => (r.addr, r.len, r.place)) = [(0x9000, 10, 0), (0x8000, 4086, 10), (0x8FF6, 914, 4096)] := by
  decide +kernel

/-! ## Fetch and staging -/

/-- A fetch job for frame 1 of slot 3: its reads in a state. -/
def job (st : ReadState) (attempts : Nat) : Job :=
  { id := 1, work := .frame 3 1, reads := [{ addr := 0x8000, len := 100, place := 0, state := st, attempts := attempts }] }

/-- The outstanding attempt of that job. -/
def attempt : Attempt := { id := 4, job := 1, read := 0, expiry := 1000000 }

/-- Slot 3 holds frame 1 with one block, its fetch in a state, a packet on its way. -/
def fetching (st : ReadState) (attempts : Nat) (out : List Attempt) (retry : List RetryRef) : State :=
  let s := due stream [] [] ⟨false, false⟩
  { s with
    scheds := s.scheds.set 3 { s.scheds[3] with groups := [frameGroup timing shape 1 1000 (frame 101 .A) false [2]] }
    engines := { s.engines with a := { jobs := [job st attempts], outstanding := out, retry := retry, nextJob := 2
                                       nextAttempt := 5 } } }

/-- An unissued read, a waiting retry, none to issue, 16 attempts outstanding, and a read outside the windows. -/
theorem test_meets_ReadsAreIssuedInOrderWithinWindows :
    (after (.readIssue .A) (fetching .unissued 0 [] [])).outputs = [.dataRead .A 5 0x8000 100]
    ∧ (after (.readIssue .A) (fetching .retry 1 [] [{ job := 1, read := 0 }])).engines.a.outstanding
      = [{ id := 5, job := 1, read := 0, expiry := 1200000 }]
    ∧ after (.readIssue .A) (fetching .outstanding 1 [attempt] []) = fetching .outstanding 1 [attempt] []
    ∧ after (.readIssue .A) (fetching .unissued 0 (List.replicate 16 attempt) [])
      = fetching .unissued 0 (List.replicate 16 attempt) []
    ∧ (after (.readIssue .A) (modLink .A (fun k => { k with windows := Vector.replicate 8 AddrWindow.closed })
        (fetching .unissued 0 [] []))).engines.a.jobs = [] := by decide +kernel

/-- A completion of all 100 bytes into block 2: its bytes, its arrival, its job gone; one no longer current. -/
theorem test_meets_CompletionWritesStagingAndArrives :
    attemptById (fetching .outstanding 1 [attempt] []).engines.a 4 = some attempt
    ∧ StagingInv (fetching .outstanding 1 [attempt] [])
    ∧ Memory.read (after (.readCompletion .A 4 (List.replicate 100 7)) (fetching .outstanding 1 [attempt] [])).staging.mem
        (2 * 16384 + 99) = 7
    ∧ Memory.read (after (.readCompletion .A 4 (List.replicate 100 7)) (fetching .outstanding 1 [attempt] [])).staging.mem
        (2 * 16384 + 100) = 0
    ∧ (after (.readCompletion .A 4 (List.replicate 100 7)) (fetching .outstanding 1 [attempt] [])).engines.a.jobs = []
    ∧ (groupsOf (after (.readCompletion .A 4 (List.replicate 100 7)) (fetching .outstanding 1 [attempt] [])) 3).flatMap
        (fun g => g.entries.map (·.arrival)) = [.arrived, .arrived]
    ∧ after (.readCompletion .A 9 []) (fetching .outstanding 1 [attempt] []) = fetching .outstanding 1 [attempt] [] := by
  unfold StagingInv
  decide +kernel

/-- A timeout with attempts left and at its expiry, an error with none left, and a timeout before its expiry. -/
theorem test_meets_FailedAttemptsAreRetriedOrFailTheJob :
    attemptById (fetching .outstanding 3 [attempt] []).engines.a 4 = some attempt
    ∧ (after (.readTimeout .A 4) (fetching .outstanding 3 [attempt] [])).engines.a.retry = [{ job := 1, read := 0 }]
    ∧ (after (.readTimeout .A 4) (fetching .outstanding 3 [attempt] [])).traps.counters[3].fetchRetries = 1
    ∧ (after (.readError .A 4) (fetching .outstanding 4 [attempt] [])).engines.a.jobs = []
    ∧ (after (.readCompletion .A 4 [1]) (fetching .outstanding 4 [attempt] [])).selectors[3].marks = ⟨true, false⟩
    ∧ after (.readTimeout .A 4) (fetching .outstanding 3 [{ attempt with expiry := 1000001 }] [])
      = fetching .outstanding 3 [{ attempt with expiry := 1000001 }] [] := by decide +kernel

/-- The FETCH_FAIL notices of a failed job behind a head that has arrived: the group's frame number, both members. -/
def failing : State :=
  let s := fetching .outstanding 4 [attempt] []
  { s with
    scheds := s.scheds.set 3 { s.scheds[3] with
      groups := [repeatGroup timing shape 0 1000, frameGroup timing shape 1 1000 (frame 101 .A) false [2]] } }

theorem test_meets_FailedAttemptsAreRetriedOrFailTheJob_notice :
    NoticeLinks failing.streams[3] [.A, .B] ∧ HasRoom failing .A ∧ HasRoom failing .B
    ∧ streamTrapSet failing 3 .fetchFail = false ∧ (slotHead failing 3).map (fun x => x.2.arrival) = some .arrived
    ∧ ((after (.readError .A 4) failing).outputs.filterMap fun o =>
        match o with
        | .completion l _ c => some (l, c.kind, c.unit, c.tag, c.fn)
        | _ => none) = [(.A, .notice .trap, 3, 19, 101), (.B, .notice .trap, 3, 19, 101)] := by
  refine ⟨.inr ⟨.A, rfl, .inr ⟨rfl, rfl⟩⟩, ?_⟩
  unfold HasRoom
  decide +kernel

/-- The only frame of the slot, with nothing of it arrived: its job's failure drops its packets, and its RESULT follows the
notices. A head before it that has not arrived either: the failed group stands behind. -/
theorem test_meets_FailedAttemptsAreRetriedOrFailTheJob_gone :
    ∀ s, s = fetching .outstanding 4 [attempt] [] →
      ((groupsOf s 3).map fun g => g.entries.map fun z => (z.done, z.arrival)) = [[(.pending, .waiting), (.pending, .waiting)]]
      ∧ groupsOf (after (.readError .A 4) s) 3 = []
      ∧ (after (.readError .A 4) s).traps.counters[3].dropsFetch = 2
      ∧ (after (.readError .A 4) s).selectors[3].marks = ⟨true, false⟩
      ∧ answers s (after (.readError .A 4) s)
        = [(.A, .notice .trap), (.B, .notice .trap), (.A, .result .fetchFailed)] := by
  rintro s rfl
  decide +kernel

/-- All hypotheses of ReadsAreIssuedInOrderWithinWindows, CompletionWritesStagingAndArrives and
FailedAttemptsAreRetriedOrFailTheJob together, on the states above: one job with one read, and the group it fills. -/
theorem test_meets_Fetch_together :
    (∃ e : FetchEngine, e = (fetching .unissued 0 [] []).engines.get .A ∧ ((fetching .unissued 0 [] []).links.get .A).up = true
      ∧ e.outstanding.length < 16 ∧ e.retry = [] ∧ e.jobs = [] ++ job .unissued 0 :: []
      ∧ (job .unissued 0).reads[0]? = some { addr := 0x8000, len := 100, place := 0, state := .unissued, attempts := 0 }
      ∧ (∀ n, n < 0 → ∀ y, (job .unissued 0).reads[n]? = some y → y.state ≠ .unissued)
      ∧ rangeInside ((fetching .unissued 0 [] []).links.get .A) 0x8000 100 = true)
    ∧ ∃ (s : State) (g : Group) (f : FrameInfo), s = fetching .outstanding 1 [attempt] []
      ∧ (s.engines.get .A).outstanding = [attempt] ∧ (s.engines.get .A).jobs = [job .outstanding 1]
      ∧ (job .outstanding 1).id = attempt.job ∧ (job .outstanding 1).work = .frame 3 1
      ∧ (job .outstanding 1).reads[attempt.read]?
        = some { addr := 0x8000, len := 100, place := 0, state := .outstanding, attempts := 1 }
      ∧ 100 ≤ (List.replicate 100 (7 : Byte)).length ∧ 0 % 4096 + 100 ≤ 4096 ∧ StagingInv s
      ∧ s.scheds[3].groups = [g] ∧ g.kind = .frame f ∧ g.index = 1 ∧ f.blocks[0 / 16384]? = some (some 2)
      ∧ 1 < 1 + s.store.active.retries ∧ attempt.expiry ≤ nowOf s := by
  refine ⟨⟨_, rfl, by decide +kernel, by decide +kernel, by decide +kernel, by decide +kernel, by decide +kernel,
    fun n h => absurd h (Nat.not_lt_zero n), by decide +kernel⟩, ⟨_, _, _, rfl, by decide +kernel, by decide +kernel,
    rfl, rfl, rfl, by decide +kernel, by decide, ?_, rfl, rfl, rfl, rfl, by decide +kernel, by decide +kernel⟩⟩
  unfold StagingInv
  decide +kernel

/-- A bulk record of 20,000 bytes of link A. -/
def bulk : BulkRecord :=
  { tag := 6, segments := [{ addr := 0x8000, len := 20000 }], total := 20000, sent := 0, granted := 0, link := .A, owed := true }

/-- Channel 2 with a queue and blocks, and a number of free blocks. -/
def channelled (q : List BulkRecord) (blocks : List HeldBlock) (free : Nat) : State :=
  { furnished with
    uplink := { furnished.uplink with tx := .sending }
    staging := { furnished.staging with free := List.range free }
    channels := furnished.channels.set 2 { Channel.initial with
      config := some { template := template, pb := 1024 }, queue := q, blocks := blocks } }

/-- A bulk job's last attempt fails: the record leaves with an ABORTED RESULT (R154). -/
theorem test_meets_FailedAttemptsAreRetriedOrFailTheJob_bulk :
    ∀ s, s = { channelled [bulk] [] 4 with
        engines := { furnished.engines with a := {
          jobs := [{ job .outstanding 4 with work := .bulk 2 0 }], outstanding := [attempt], retry := [], nextJob := 2
          nextAttempt := 5 } } } →
      s.channels[2].queue = [bulk] ∧ HasRoom s .A
      ∧ (after (.readError .A 4) s).channels[2].queue = []
      ∧ answers s (after (.readError .A 4) s) = [(.A, .result .aborted)] := by
  rintro s rfl
  unfold HasRoom
  decide +kernel

/-- A grant at 513 free blocks, none at 512, none for a record whose two blocks are granted. -/
theorem test_meets_BulkChannelsAskForBlocksAndOffer_ask :
    (after (.bulkBlockAsk 2) (channelled [bulk] [] 513)).channels[2].blocks = [{ number := 0, pool := 0, got := [] }]
    ∧ (after (.bulkBlockAsk 2) (channelled [bulk] [] 512)).channels[2].blocks = []
    ∧ (after (.bulkBlockAsk 2) (channelled [{ bulk with granted := 2 }] [] 513)).channels[2].blocks = []
    ∧ (after (.bulkBlockAsk 2) (channelled [bulk] [] 513)).engines.a.jobs.map (fun j => j.reads.map (fun r => (r.addr, r.len)))
      = [[(0x8000, 4096), (0x9000, 4096), (0xA000, 4096), (0xB000, 4096)]] := by decide +kernel

/-! ## Uplink arbitration -/

/-- A group of one REPEAT entry for a frame with a deadline, eligible from 900,000. -/
def marker (kind : GroupKind) (deadline : Int) : Group :=
  { kind := kind, index := 1, fn := 101, interval := 5000000, template := template
    entries := [{ kind := if kind = .repeatMark then .markRepeat else .markEnd, index := 0, sched := 950000, elig := 900000
                  deadline := deadline, place := 0, len := 0, arrival := .arrived, done := .pending }] }

/-- Slots 3 and 5 with their groups and a credit. -/
def contending (a b : List Group) (credit : Nat) : State :=
  { live with
    scheds := (live.scheds.set 3 { live.scheds[3] with groups := a }).set 5 { live.scheds[5] with groups := b }
    uplink := { live.uplink with credit := credit } }

/-- The earlier deadline wins; of equals, the lower slot. A head past its deadline does not compete. -/
theorem test_meets_EarliestDeadlineFirst :
    (bestHead (contending [marker .repeatMark 2000001] [marker .repeatMark 2000000] 0)).map (·.slot) = some 5
    ∧ (bestHead (contending [marker .repeatMark 2000000] [marker .repeatMark 2000000] 0)).map (·.slot) = some 3
    ∧ (bestHead (contending [marker .repeatMark 999999] [marker .repeatMark 1000000] 0)).map (·.slot) = some 5
    ∧ bestHead live = none
    ∧ finish live (contending [marker .repeatMark 2000000] [] 480000000) ≠ contending [marker .repeatMark 2000000] [] 480000000
    ∧ finish live live = live := by
  decide +kernel

/-- A marker of 16 + 20 + 24 bytes costs 480,000,000; with that credit it starts, with one less it waits. -/
theorem test_meets_OpportunityStartsOrAwaitsTheHead :
    (eligibleHead (contending [marker .repeatMark 2000000] [] 480000000) 3).isSome = true
    ∧ (contending [marker .repeatMark 2000000] [] 480000000).uplink.tx = .idle
    ∧ (bestHead (contending [marker .repeatMark 2000000] [] 480000000)).map (·.slot) = some 3
    ∧ (slotHead (contending [marker .repeatMark 2000000] [] 480000000) 3).isSome = true
    ∧ (after (.headEligible 3) (contending [marker .repeatMark 2000000] [] 480000000)).uplink.tx = .sending
    ∧ (after (.headEligible 3) (contending [marker .repeatMark 2000000] [] 480000000)).uplink.credit = 0
    ∧ (after (.headEligible 3) (contending [marker .repeatMark 2000000] [] 480000000)).traps.counters[3].markersSent = 1
    ∧ ((after (.headEligible 3) (contending [marker .repeatMark 2000000] [] 479999999)).uplink.wait).map (·.cost)
      = some 480000000
    ∧ (after (.headEligible 3) (contending [marker .repeatMark 2000000] [] 479999999)).uplink.tx = .idle := by
  decide +kernel

/-- Slot 3 holds a frame of two packets, both arrived, at station time 22,501,000, one of them perhaps sent; the next
frame's marker stands behind it. -/
def startingFrame (first : Done) : State :=
  let g := frameGroup timing shape 1 1000 (frame 101 .A) false [2]
  let s := contending [{ g with entries := (g.entries.zip [first, .pending]).map fun x =>
    { x.1 with arrival := .arrived, done := x.2, elig := 0 } }, repeatGroup timing shape 2 1000] [] 524288000000
  { s with clock := { s.clock with time := if first = .pending then 22501000 else 32001007 } }

/-- The first packet starts 500,000 ns after its time and is marked sent; the group keeps that lateness and the second is
the head (R63, R66). The second starts 7 ns late, and the frame leaves SENT with the lateness of its own start. -/
theorem test_meets_OpportunityStartsOrAwaitsTheHead_list :
    (groupsOf (after (.headEligible 3) (startingFrame .pending)) 3).map (fun g =>
        (g.fn, g.entries.map (·.done), match g.kind with | .frame f => f.lateness | _ => 0))
      = [(101, [.sent, .pending], 500000), (102, [.pending], 0)]
    ∧ ((slotHead (after (.headEligible 3) (startingFrame .pending)) 3).map fun x => x.2.index) = some 1
    ∧ answers (startingFrame .pending) (after (.headEligible 3) (startingFrame .pending)) = []
    ∧ (groupsOf (after (.headEligible 3) (startingFrame .sent)) 3).map (·.fn) = [102]
    ∧ answers (startingFrame .sent) (after (.headEligible 3) (startingFrame .sent)) = [(.A, .result .sent)]
    ∧ (after (.headEligible 3) (startingFrame .sent)).traps.counters[3].lateness = 7
    ∧ (startingFrame .sent).streams[3].state ≠ .draining := by decide +kernel

/-- A LEAD frame of one LIVE packet with an item: in list order the item's packet is the last (log 42). -/
theorem test_last_flag :
    (frameGroup timing shape 1 1000 { twoPackets with len := 60 } false [0]).entries.map (fun e =>
      (e.kind, isLastEntry (frameGroup timing shape 1 1000 { twoPackets with len := 60 } false [0]) e))
      = [(.live, false), (.anc, true)] := by decide +kernel

/-- The shim of that marker (12.5). -/
theorem test_shim : (after (.headEligible 3) (contending [marker .repeatMark 2000000] [] 480000000)).outputs.map (fun o =>
      match o with
      | .packet p => shimToBytes p.shim
      | _ => [])
    = [[3, 3, 3, 1, 0, 0, 0, 0, 0, 0, 0, 0, 0, 101, 0, 0x0E, 0x7E, 0xF0, 0, 0]] := by decide +kernel

/-- The same opportunity at the other commands that bring one. -/
theorem test_opportunities :
    (after .packetEnd { contending [marker .repeatMark 2000000] [] 480000000 with
      uplink := { live.uplink with tx := .sending, credit := 480000000 } }).uplink.tx = .sending
    ∧ (after .uplinkRestore { contending [marker .repeatMark 2000000] [] 480000000 with
      uplink := { live.uplink with tx := .down, credit := 480000000 } }).uplink.tx = .sending
    ∧ (after .creditReady { contending [marker .repeatMark 2000000] [] 480000000 with
      uplink := { live.uplink with bulkWait := some 480000000, credit := 480000000 } }).uplink.tx = .sending := by
  decide +kernel

/-- Block 0 of the record has come in. -/
def arrived : HeldBlock := { number := 0, pool := 1, got := [(0, 16384)] }

/-- Channel 2 with work, the transmitter IDLE and a credit. -/
def offering (q : List BulkRecord) (abandon : Option Abandon) (credit : Nat) (trip : Option Int) : State :=
  { channelled q [arrived] 4 with
    channels := live.channels.set 2 { Channel.initial with
      config := some { template := template, pb := 1024 }, queue := q, blocks := [arrived], abandon := abandon }
    uplink := { live.uplink with credit := credit, trip := trip } }

/-- A packet, a marker before it, the last packet's 544 bytes, none while its block is missing. -/
theorem test_meets_BulkChannelsAskForBlocksAndOffer_offer :
    (offerOf (offering [bulk] none 0 none).channels[2]).map (fun o => (o.marker, o.index, o.count, o.payload, o.wire))
      = some (false, 0, 20, 1024, 1084)
    ∧ (offerOf (offering [bulk] (some { tag := 5, index := 2, count := 9 }) 0 none).channels[2]).map
        (fun o => (o.marker, o.index, o.count, o.payload, o.wire)) = some (true, 2, 9, 0, 60)
    ∧ offerOf (offering [{ bulk with sent := 16 }] none 0 none).channels[2] = none
    ∧ bulkPayload 1024 20000 19 = 544 := by decide +kernel

/-- With credit for the packet it starts; with less, the bulk credit wait; with the trip running, nothing. -/
theorem test_meets_OpportunityServesBulkInTurn :
    bestHead (offering [bulk] none 8672000000 none) = none
    ∧ OpportunityAt .creditReady { offering [bulk] none 8672000000 none with
        uplink := { (offering [bulk] none 8672000000 none).uplink with bulkWait := some 8672000000 } }
        { offering [bulk] none 8672000000 none with
          uplink := { (offering [bulk] none 8672000000 none).uplink with bulkWait := some 8672000000 } }
    ∧ (opportunity (offering [bulk] none 8672000000 none)).uplink.rr = 2
    ∧ (opportunity (offering [bulk] none 8672000000 none)).channels[2].queue = [{ bulk with sent := 1 }]
    ∧ (opportunity (offering [bulk] none 8671999999 none)).uplink.bulkWait = some 8672000000
    ∧ (opportunity (offering [bulk] none 8672000000 (some 5))).uplink.tx = .idle
    ∧ answers live (opportunity (offering [{ bulk with sent := 0, total := 1024 }] none 8672000000 none))
      = [(.A, .result .sent)] :=
  ⟨by decide +kernel, .inr (.inr (.inr ⟨rfl, by decide +kernel, rfl, .inr ⟨_, rfl, by decide +kernel⟩⟩)),
    by decide +kernel⟩

/-- At 1,000,000 a deadline of 999,999 has passed and one of 1,000,000 has not; an uplink that is up or down. -/
theorem test_meets_ExpiredHeadsAreDropped :
    (slotHead (contending [marker .repeatMark 999999] [] 0) 3).map (fun x => decide (x.2.deadline < 1000000)) = some true
    ∧ nowOf (contending [marker .repeatMark 999999] [] 0) = 1000000
    ∧ (after (.deadlineExpiry 3) (contending [marker .repeatMark 999999] [] 0)).traps.counters[3].dropsLate = 1
    ∧ (after (.deadlineExpiry 3) (contending [marker .repeatMark 999999] [] 0)).uplink.trip = some 101000000
    ∧ streamTrapSet (after (.deadlineExpiry 3) (contending [marker .repeatMark 999999] [] 0)) 3 .lateDrop = true
    ∧ groupsOf (after (.deadlineExpiry 3) (contending [marker .repeatMark 999999] [] 0)) 3 = []
    ∧ groupsOf (after (.deadlineExpiry 3) (contending [marker .repeatMark 1000000] [] 0)) 3 = [marker .repeatMark 1000000]
    ∧ (after (.deadlineExpiry 3) { contending [marker .repeatMark 999999] [] 0 with
        uplink := { live.uplink with tx := .down } }).traps.counters[3].dropsDown = 1 := by decide +kernel

/-- A FRAME group of slot 3 with the done flags of its two entries. -/
def frameOf (a b : Done) : Group :=
  let g := frameGroup timing shape 1 1000 (frame 101 .A) false [2]
  { g with entries := (g.entries.zip [a, b]).map fun x => { x.1 with done := x.2, arrival := .arrived } }

/-- The first of a frame's two packets is a nanosecond late: the LATE_DROP notices carry the frame's number. -/
def lateFrame : State :=
  { contending [frameOf .pending .pending] [] 0 with clock := { live.clock with time := 32001001 } }

theorem test_meets_ExpiredHeadsAreDropped_notice :
    NoticeLinks lateFrame.streams[3] [.A, .B] ∧ HasRoom lateFrame .A ∧ HasRoom lateFrame .B
    ∧ streamTrapSet lateFrame 3 .lateDrop = false
    ∧ ((groupsOf lateFrame 3).flatMap fun g => g.entries.map (·.deadline)) = [32001000, 42001000]
    ∧ ((after (.deadlineExpiry 3) lateFrame).outputs.filterMap fun o =>
        match o with
        | .completion l _ c => some (l, c.kind, c.unit, c.tag, c.fn)
        | _ => none) = [(.A, .notice .trap, 3, 16, 101), (.B, .notice .trap, 3, 16, 101)] := by
  refine ⟨.inr ⟨.A, rfl, .inr ⟨rfl, rfl⟩⟩, ?_⟩
  unfold HasRoom
  decide +kernel

/-- A frame with a packet left keeps its block; one that is done leaves with its result. -/
theorem test_meets_DoneEntriesFreeBlocksAndGroupsLeave :
    (releaseBlocks 3 (contending [frameOf .sent .pending] [] 0)).staging.free = [0, 1, 2, 3, 4, 5]
    ∧ (releaseBlocks 3 (contending [frameOf .sent .sent] [] 0)).staging.free = [0, 1, 2, 3, 4, 5, 2]
    ∧ HasRoom (contending [frameOf .sent .sent] [] 0) .A
    ∧ answers live (leaveDone 3 (contending [frameOf .sent .sent] [] 0)) = [(.A, .result .sent)]
    ∧ answers live (leaveDone 3 (contending [frameOf .sent (.dropped .late)] [] 0)) = [(.A, .result .partialSent)]
    ∧ groupsOf (leaveDone 3 (contending [frameOf .sent .sent] [] 0)) 3 = [] := by
  unfold HasRoom
  decide +kernel

/-- The END of a DRAINING stream once its last frame has left, and the slot once the END is done (R34). -/
theorem test_drain_ends :
    ((groupsOf (leaveDone 3 (modStream 3 (fun r => { r with state := .draining })
      (contending [frameOf .sent .sent] [] 0))) 3).map (·.kind)) = [.endMark]
    ∧ (after (.headEligible 3) (modStream 3 (fun r => { r with
        state := .draining, pendingClose := some { tag := 9, link := .A, owed := true } })
        (contending [marker .endMark 2000000] [] 480000000))).streams[3].state = .closed := by decide +kernel

/-- The uplink lost and its trap; timers at their expiry and past it; events that find nothing to act on. -/
theorem test_meets_TimersExpireAndUplinkIsLost :
    live.uplink.tx ≠ .down ∧ (after .uplinkLoss live).uplink.tx = .down
    ∧ deviceTrapSet (after .uplinkLoss live) .uplinkDown = true
    ∧ after .packetEnd live = live ∧ after .uplinkRestore live = live ∧ after (.headEligible 3) live = live
    ∧ after .creditReady live = live
    ∧ (after .bulkTripExpiry { live with uplink := { live.uplink with trip := some 1000000 } }).uplink.trip = none
    ∧ (after .bulkTripExpiry { live with uplink := { live.uplink with trip := some 1000001 } }).uplink.trip
      = some 1000001
    ∧ (after (.holdTimerExpiry 2) { live with channels := live.channels.set 2 { Channel.initial with
        hold := .held 999999 } }).channels[2].hold = .released
    ∧ (after (.holdTimerExpiry 2) { live with channels := live.channels.set 2 { Channel.initial with
        hold := .held 1000000 } }).channels[2].hold = .held 1000000 := by decide +kernel

/-- A header over a payload of 64 bytes: 7 + 84, 9 + 84, and the words of its range sum to FFFF. -/
theorem test_meets_HeaderCarriesLengthsAndSum :
    templateOk template template.bytes.length = true
    ∧ (patchedHeader template 64).take 6 = [1, 1, 0, 91, 0, 93] ∧ onesSum 0 (patchedHeader template 64) = 65535 := by
  decide +kernel

/-! ## Bulk channels and studio feedback -/

/-- A channel description with a payload size. -/
def channelDescription (pb : Nat) : Bytes :=
  leBytes 2 pb ++ [16, 2, 7, 0, 4, 0, 9, 0, 15, 10] ++ List.replicate 4 0 ++ List.replicate 112 1

/-- A BULK-SETUP of a channel with its description at 0x7000. -/
def setup (action unit : Byte) : Record := record [8, 0, unit, 0, 9, 0, 0, 0, action, 0, 0, 0, 0, 0, 0, 0, 0, 0x70]

/-- The state before a BULK-SETUP: channel 2's queue and blocks, a packet on its way. -/
def setupState (action unit : Byte) (q : List BulkRecord) : State := asking (setup action unit) [] (channelled q [] 4)

/-- Unit, payload size, queue; status. -/
def setupCases : List (Nat × Nat × List BulkRecord × Status) :=
  [(2, 1024, [], .ok), (2, 8192, [], .ok), (2, 1023, [], .badRequest), (2, 8193, [], .badRequest),
    (4, 1024, [], .badRequest), (2, 1024, [bulk], .wrongState)]

theorem test_meets_BulkSetupConfiguresTheChannel :
    ∀ x ∈ setupCases,
      AtHand (asking (setup 1 (BitVec.ofNat 8 x.1)) [] (channelled x.2.2.1 [] 4)) .A
        (setup 1 (BitVec.ofNat 8 x.1)) [channelDescription x.2.1]
      ∧ recKind (setup 1 (BitVec.ofNat 8 x.1)) = 8 ∧ (channelDescription x.2.1).length = 128
      ∧ answers live (after (.bulkSetupSet .A (setup 1 (BitVec.ofNat 8 x.1)) [channelDescription x.2.1])
          (asking (setup 1 (BitVec.ofNat 8 x.1)) [] (channelled x.2.2.1 [] 4)))
        = [(.A, .result x.2.2.2)] := by
  have h :
    ∀ x ∈ setupCases,
      atHand (asking (setup 1 (BitVec.ofNat 8 x.1)) [] (channelled x.2.2.1 [] 4)) .A
        (setup 1 (BitVec.ofNat 8 x.1)) [channelDescription x.2.1] = true
      ∧ recKind (setup 1 (BitVec.ofNat 8 x.1)) = 8 ∧ (channelDescription x.2.1).length = 128
      ∧ answers live (after (.bulkSetupSet .A (setup 1 (BitVec.ofNat 8 x.1)) [channelDescription x.2.1])
          (asking (setup 1 (BitVec.ofNat 8 x.1)) [] (channelled x.2.2.1 [] 4)))
        = [(.A, .result x.2.2.2)] := by decide +kernel
  exact fun x hx => ⟨at_hand_of_test (h x hx).1, (h x hx).2⟩

/-- What a SET leaves of the channel. -/
theorem test_setup_configures :
    (after (.bulkSetupSet .A (setup 1 2) [channelDescription 2048])
      (asking (setup 1 2) [] (channelled [] [] 4))).channels[2].config
      = some { template := { template with bytes := List.replicate 16 1 }, pb := 2048 } := by decide +kernel

/-- Unit and queue; configured after, status. -/
theorem test_meets_BulkClearUnconfiguresTheChannel :
    ∀ x ∈ ([(2, [], false, .ok), (1, [], true, .ok), (4, [], true, .badRequest), (2, [bulk], true, .wrongState)]
        : List (Nat × List BulkRecord × Bool × Status)),
      Ready (setupState 2 (BitVec.ofNat 8 x.1) x.2.1) .A (setup 2 (BitVec.ofNat 8 x.1)) []
      ∧ recKind (setup 2 (BitVec.ofNat 8 x.1)) = 8 ∧ recAction (setup 2 (BitVec.ofNat 8 x.1)) = 2
      ∧ (after (.bulkSetupClear .A (setup 2 (BitVec.ofNat 8 x.1))) (setupState 2 (BitVec.ofNat 8 x.1) x.2.1)).channels[2].config.isSome
        = x.2.2.1
      ∧ answers live (after (.bulkSetupClear .A (setup 2 (BitVec.ofNat 8 x.1))) (setupState 2 (BitVec.ofNat 8 x.1) x.2.1))
        = [(.A, .result x.2.2.2)] := by
  unfold Ready
  decide +kernel

/-- A BULK-POST of a channel with one inline segment at 0x8000. -/
def posting (unit : Byte) (len segs : Nat) : Record :=
  record ([9, 1, unit, 0, 6, 0, 0, 0] ++ leBytes 4 len ++ [BitVec.ofNat 8 segs, 0, 0, 0] ++ leBytes 8 0x8000)

/-- Unit, length, segments, queue; status, or none for a deferred result. -/
def postCases : List (Nat × Nat × Nat × List BulkRecord × Option Status) :=
  [(2, 20000, 1, [], none), (4, 20000, 1, [], some .badRequest), (2, 0, 1, [], some .badRequest),
    (2, 20000, 2, [], some .badRequest), (2, 16777216, 1, [], none), (2, 16777217, 1, [], some .tooLong),
    (1, 20000, 1, [], some .wrongState), (2, 20000, 1, List.replicate 32 bulk, some .queueFull)]

theorem test_meets_BulkPostIsQueuedOrRefused :
    ∀ x ∈ postCases,
      AtHand (waiting (channelled x.2.2.2.1 [] 4)) .A
        (posting (BitVec.ofNat 8 x.1) x.2.1 x.2.2.1) []
      ∧ recKind (posting (BitVec.ofNat 8 x.1) x.2.1 x.2.2.1) = 9
      ∧ answers live (after (.bulkPost .A (posting (BitVec.ofNat 8 x.1) x.2.1 x.2.2.1) [])
          (waiting (channelled x.2.2.2.1 [] 4)))
        = (x.2.2.2.2.map fun st => (Link.A, CompletionKind.result st)).toList := by
  have h :
    ∀ x ∈ postCases,
      atHand (waiting (channelled x.2.2.2.1 [] 4)) .A
        (posting (BitVec.ofNat 8 x.1) x.2.1 x.2.2.1) [] = true
      ∧ recKind (posting (BitVec.ofNat 8 x.1) x.2.1 x.2.2.1) = 9
      ∧ answers live (after (.bulkPost .A (posting (BitVec.ofNat 8 x.1) x.2.1 x.2.2.1) [])
          (waiting (channelled x.2.2.2.1 [] 4)))
        = (x.2.2.2.2.map fun st => (Link.A, CompletionKind.result st)).toList := by decide +kernel
  exact fun x hx => ⟨at_hand_of_test (h x hx).1, (h x hx).2⟩

theorem test_post_queues : (after (.bulkPost .A (posting 2 20000 1) [])
    (waiting (channelled [] [] 4))).channels[2].queue = [bulk] := by decide +kernel

/-- A BULK-ABORT of channel 2. -/
def aborting (scope tag : Byte) : Record := record [10, 0, 2, 0, 9, 0, 0, 0, tag, 0, 0, 0, scope]

/-- The command of a BULK-ABORT. -/
def abortCommand (scope tag : Byte) : Instr :=
  if scope = 2 then .bulkAbortAll .A (aborting scope tag) else .bulkAbortOne .A (aborting scope tag)

/-- Channel 2 with an active record of which a packet has started, a record of link B and another of link A. -/
def abortState (scope tag : Byte) : State :=
  asking (aborting scope tag) [] (channelled
    [{ bulk with sent := 1, granted := 1 }, { bulk with link := .B }, { bulk with tag := 7 }] [arrived] 4)

/-- Scope and tag; records left, whether an abandon marker waits, completions. -/
theorem test_meets_BulkAbortEndsRecords :
    ∀ x ∈ ([(0, 6, 3, false, [.badRequest]), (1, 8, 3, false, [.notFound]), (1, 6, 2, true, [.aborted, .ok]),
        (1, 7, 2, false, [.aborted, .ok]), (2, 0, 1, true, [.aborted, .aborted, .ok])]
        : List (Nat × Nat × Nat × Bool × List Status)),
      Ready (abortState (BitVec.ofNat 8 x.1) (BitVec.ofNat 8 x.2.1)) .A (aborting (BitVec.ofNat 8 x.1) (BitVec.ofNat 8 x.2.1)) []
      ∧ recKind (aborting (BitVec.ofNat 8 x.1) (BitVec.ofNat 8 x.2.1)) = 10
      ∧ recScope (aborting (BitVec.ofNat 8 x.1) (BitVec.ofNat 8 x.2.1)) = x.1
      ∧ (after (abortCommand (BitVec.ofNat 8 x.1) (BitVec.ofNat 8 x.2.1))
          (abortState (BitVec.ofNat 8 x.1) (BitVec.ofNat 8 x.2.1))).channels[2].queue.length = x.2.2.1
      ∧ (after (abortCommand (BitVec.ofNat 8 x.1) (BitVec.ofNat 8 x.2.1))
          (abortState (BitVec.ofNat 8 x.1) (BitVec.ofNat 8 x.2.1))).channels[2].abandon.isSome = x.2.2.2.1
      ∧ answers live (after (abortCommand (BitVec.ofNat 8 x.1) (BitVec.ofNat 8 x.2.1))
          (abortState (BitVec.ofNat 8 x.1) (BitVec.ofNat 8 x.2.1))) = x.2.2.2.2.map fun st => (.A, .result st) := by
  unfold Ready
  decide +kernel

/-- A frame with a feedback shim at offset 42. -/
def feedback (kind ch code : Byte) (seq : Nat) (len : Byte) : Bytes :=
  List.replicate 42 0 ++ [kind, 0, ch, code] ++ beBytes 2 seq ++ List.replicate 12 0 ++ [0, len]

/-- The channel's last sequence, a frame; last sequence and ignored count after: the sequence of R156, and frames that
are malformed, of another kind, or too short. -/
theorem test_meets_FeedbackIsJudgedAndActs :
    ∀ x ∈ ([(65534, feedback 5 2 1 65535 0, 65535, 0), (65535, feedback 5 2 2 2 0, 2, 0), (2, feedback 5 2 1 65000 0, 2, 1),
        (2, feedback 5 2 1 32770 0, 2, 1), (2, feedback 5 2 1 32769 0, 32769, 0), (2, feedback 5 4 1 3 0, 2, 1),
        (2, feedback 5 2 3 3 0, 2, 1), (2, feedback 5 2 1 3 1, 2, 1), (2, feedback 4 2 1 3 0, 2, 0),
        (2, (feedback 5 2 1 3 0).take 61, 2, 0)] : List (Nat × Bytes × Nat × Nat)),
      live.store.ready = true ∧ live.store.active.fbOffset = 42
      ∧ (after (.feedbackFrame x.2.1) { live with channels := live.channels.set 2 { Channel.initial with
          lastSeq := some (BitVec.ofNat 16 x.1) } }).channels[2].lastSeq = some (BitVec.ofNat 16 x.2.2.1)
      ∧ (after (.feedbackFrame x.2.1) { live with channels := live.channels.set 2 { Channel.initial with
          lastSeq := some (BitVec.ofNat 16 x.1) } }).traps.devCounters.feedbackIgnored.toNat = x.2.2.2 := by decide +kernel

theorem test_hold : (after (.feedbackFrame (feedback 5 2 1 9 0)) live).channels[2].hold = .held 2001000000 := by
  decide +kernel

/-! ## Traps and reports -/

/-- Every trap is set. -/
def trapped : State := { live with traps := { live.traps with device := 0x3FF, stream := Vector.replicate 32 0x1F } }

/-- The notices of a device trap and of a stream's trap, with members and without; none at a set trap. -/
theorem test_meets_TrapsAreAnnouncedAtTheirFirstSetting :
    HasRoom live .A ∧ HasRoom live .B ∧ deviceTrapSet live .poolStarved = false ∧ streamTrapSet live 3 .orphaned = false
    ∧ NoticeLinks live.streams[3] [.A, .B] ∧ NoticeLinks StreamRec.blank [.A, .B]
    ∧ NoticeLinks { stream with owner := some .B, standby := none } [.B]
    ∧ (∀ x ∈ ([(raiseDevice .poolStarved live, [(.A, 255, 3, 0), (.B, 255, 3, 0)]),
          (raiseStream 3 .lateDrop 101 live, [(.A, 3, 16, 101), (.B, 3, 16, 101)]),
          (raiseStream 3 .miss 101 (carrying { stream with owner := some .B, standby := none } base), [(.B, 3, 17, 101)]),
          (raiseStream 4 .orphaned 0 live, [(.A, 4, 20, 0), (.B, 4, 20, 0)]), (raiseStream 3 .switch 101 live, [])]
          : List (State × List (Link × Byte × BitVec 32 × BitVec 32))),
        (x.1.outputs.filterMap fun o =>
          match o with
          | .completion l _ c => some (l, c.unit, c.tag, c.fn)
          | _ => none) = x.2)
    ∧ raiseDevice .oversub trapped = trapped ∧ raiseStream 3 .miss 101 trapped = trapped := by
  refine ⟨by unfold HasRoom; decide +kernel, by unfold HasRoom; decide +kernel, by decide +kernel, by decide +kernel,
    .inr ⟨.A, rfl, .inr ⟨rfl, rfl⟩⟩, .inl ⟨rfl, rfl, rfl⟩, .inr ⟨.B, rfl, .inl ⟨rfl, rfl⟩⟩, by decide +kernel⟩

/-- A TRAP-CLEAR for slot 3 with a mask. -/
def clearing (scope : Byte) (mask : Nat) : Record := record ([15, 0, 3, 0, 9, 0, 0, 0, scope, 0, 0, 0] ++ leBytes 4 mask)

/-- The command of a TRAP-CLEAR. -/
def clearCommand (scope : Byte) (mask : Nat) : Instr :=
  if scope = 2 then .trapClearStream .A (clearing scope mask) else .trapClearDevice .A (clearing scope mask)

/-- Scope, mask; device traps, slot 3's traps and status after. -/
theorem test_meets_TrapClearsAndReportsAreAnswered_clear :
    ∀ x ∈ ([(1, 0x201, 0x1FE, 0x1F, .ok), (1, 0x3FF, 0, 0x1F, .ok), (1, 0x400, 0x3FF, 0x1F, .badRequest),
        (3, 1, 0x3FF, 0x1F, .badRequest), (2, 0x11, 0x3FF, 0x0E, .ok), (2, 0x20, 0x3FF, 0x1F, .badRequest)]
        : List (Nat × Nat × Nat × Nat × Status)),
      Ready (asking (clearing (BitVec.ofNat 8 x.1) x.2.1) [] trapped) .A (clearing (BitVec.ofNat 8 x.1) x.2.1) []
      ∧ recKind (clearing (BitVec.ofNat 8 x.1) x.2.1) = 15 ∧ recAction (clearing (BitVec.ofNat 8 x.1) x.2.1) = x.1
      ∧ (after (clearCommand (BitVec.ofNat 8 x.1) x.2.1) (asking (clearing (BitVec.ofNat 8 x.1) x.2.1) [] trapped)).traps.device.toNat
        = x.2.2.1
      ∧ (after (clearCommand (BitVec.ofNat 8 x.1) x.2.1) (asking (clearing (BitVec.ofNat 8 x.1) x.2.1) [] trapped)).traps.stream[3].toNat
        = x.2.2.2.1
      ∧ answers live (after (clearCommand (BitVec.ofNat 8 x.1) x.2.1) (asking (clearing (BitVec.ofNat 8 x.1) x.2.1) [] trapped))
        = [(.A, .result x.2.2.2.2)] := by
  unfold Ready
  decide +kernel

/-- A REPORT of slot 3 to 0x7000, with its counters reset. -/
def reporting (scope unit : Byte) : Record := record [16, 2, unit, 0, 9, 0, 0, 0, scope, 0, 0, 0, 0, 0, 0, 0, 0, 0x70]

/-- The command of a REPORT. -/
def reportCommand (scope unit : Byte) : Instr :=
  if scope = 2 then .reportDevice .A (reporting scope unit) else .reportStream .A (reporting scope unit)

/-- Counters of slot 3 and of the device have counted. -/
def counted : State :=
  { trapped with traps := { trapped.traps with
      counters := trapped.traps.counters.set 3 { StreamCounters.zero with lateness := 5 }
      devCounters := { DeviceCounters.zero with feedbackIgnored := 6 } } }

/-- Scope, slot byte; first byte of the record written, counters of the slot and the device after, status. -/
theorem test_meets_TrapClearsAndReportsAreAnswered_report :
    ∀ x ∈ ([(1, 3, [1], 0, 6, .ok), (2, 3, [2], 5, 0, .ok), (1, 32, [], 5, 6, .badRequest), (3, 3, [], 5, 6, .badRequest)]
        : List (Nat × Nat × List Byte × Nat × Nat × Status)),
      Ready (asking (reporting (BitVec.ofNat 8 x.1) (BitVec.ofNat 8 x.2.1)) [] counted) .A
        (reporting (BitVec.ofNat 8 x.1) (BitVec.ofNat 8 x.2.1)) []
      ∧ recKind (reporting (BitVec.ofNat 8 x.1) (BitVec.ofNat 8 x.2.1)) = 16
      ∧ recReset (reporting (BitVec.ofNat 8 x.1) (BitVec.ofNat 8 x.2.1)) = true
      ∧ (after (reportCommand (BitVec.ofNat 8 x.1) (BitVec.ofNat 8 x.2.1))
          (asking (reporting (BitVec.ofNat 8 x.1) (BitVec.ofNat 8 x.2.1)) [] counted)).outputs.filterMap (fun o =>
            match o with
            | .reportWrite _ _ bs => bs.head?
            | _ => none) = x.2.2.1
      ∧ (after (reportCommand (BitVec.ofNat 8 x.1) (BitVec.ofNat 8 x.2.1))
          (asking (reporting (BitVec.ofNat 8 x.1) (BitVec.ofNat 8 x.2.1)) [] counted)).traps.counters[3].lateness.toNat
        = x.2.2.2.1
      ∧ (after (reportCommand (BitVec.ofNat 8 x.1) (BitVec.ofNat 8 x.2.1))
          (asking (reporting (BitVec.ofNat 8 x.1) (BitVec.ofNat 8 x.2.1)) [] counted)).traps.devCounters.feedbackIgnored.toNat
        = x.2.2.2.2.1
      ∧ answers live (after (reportCommand (BitVec.ofNat 8 x.1) (BitVec.ofNat 8 x.2.1))
          (asking (reporting (BitVec.ofNat 8 x.1) (BitVec.ofNat 8 x.2.1)) [] counted)) = [(.A, .result x.2.2.2.2.2)] := by
  unfold Ready
  decide +kernel

/-! ## Management port and settings -/

/-- The pointer of the port. -/
def pointed (p : Byte) (latch : Option (Nat × Bytes)) (s : State) : State :=
  { s with port := { s.port with pointer := p, latch := latch } }

/-- Identity bytes, the wrap from 0xFF to 0x00, and the rest of a row latched before; a trap row written. -/
theorem test_meets_MapReadsTrapClearsAndCommits_map :
    (after (.mapRead 0x2C true 3) (pointed 0xFE none base)).outputs = [.mapBytes [0, 0, 0x52]]
    ∧ (after (.mapRead 0x2C true 3) (pointed 0xFE none base)).port.pointer = 1
    ∧ (after (.mapRead 0x2C false 2) (pointed 7 (some (0, List.replicate 8 0xEE)) base)).outputs = [.mapBytes [0xEE, 0x0F]]
    ∧ (after (.mapRead 0x2D true 3) base).outputs = [.notAcknowledged]
    ∧ (after (.mapTrapClear 0x2C 0x10 [0xFE, 0xFD]) trapped).traps.device = 0x1FE
    ∧ (after (.mapTrapClear 0x2C 0x14 [0xF7]) trapped).traps.stream[3] = 0
    ∧ (after (.mapTrapClear 0x2C 0x14 [0xF7]) trapped).traps.stream[4] = 0x1F
    ∧ after (.mapTrapClear 0x2C 0x18 [0]) trapped = trapped := by decide +kernel

/-- A setting, a value, its pointer and length; taken or not. Rate 1,000,000 kbit/s, line rate 10, floor 0 before. -/
theorem test_meets_SettingsTakeValuesInRange :
    ∀ x ∈ ([(.rate, 1000, 0x40, 4, true), (.rate, 999, 0x40, 4, false), (.rate, 10000000, 0x40, 4, true),
        (.rate, 10000001, 0x40, 4, false), (.ceiling, 50, 0x44, 1, true), (.ceiling, 101, 0x44, 1, false),
        (.lineRate, 25, 0x45, 1, true), (.lineRate, 11, 0x45, 1, false), (.retries, 7, 0x46, 1, true),
        (.retries, 8, 0x46, 1, false), (.rolePref, 2, 0x47, 1, true), (.rolePref, 3, 0x47, 1, false),
        (.floor, 1000000, 0x48, 4, true), (.floor, 1000001, 0x48, 4, false), (.burst, 9216, 0x4C, 4, true),
        (.burst, 9215, 0x4C, 4, false), (.holdLimit, 10000, 0x50, 2, true), (.holdLimit, 10001, 0x50, 2, false),
        (.tripTime, 0, 0x52, 2, true), (.tripTime, 1001, 0x52, 2, false), (.fbOffset, 14, 0x54, 1, true),
        (.fbOffset, 97, 0x54, 1, false), (.i2c, 0x77, 0x55, 1, true), (.i2c, 0x07, 0x55, 1, false)]
        : List (SettingId × Nat × Nat × Nat × Bool)),
      acknowledged base 0x2C = true ∧ settingPlace x.1 = ((BitVec.ofNat 8 x.2.2.1).toNat, x.2.2.2.1)
      ∧ x.2.1 < 256 ^ x.2.2.2.1
      ∧ (after (.settingsWrite 0x2C (BitVec.ofNat 8 x.2.2.1) (leBytes x.2.2.2.1 x.2.1)) base).store.active
        = (if x.2.2.2.2 then putSetting x.1 x.2.1 base.store.active else base.store.active) := by decide +kernel

/-- A burst below the credit cuts it; a rate and a line rate written together are judged together (R188). -/
theorem test_settings_together :
    (after (.settingsWrite 0x2C 0x4C (leBytes 4 9216)) base).uplink.credit = 73728000000
    ∧ (after (.settingsWrite 0x2C 0x40 (leBytes 4 20000000 ++ [90, 25]))
        { base with uplink := { base.uplink with portRate := 25 } }).store.active
      = { base.store.active with rate := 20000000, lineRate := 25 } := by decide +kernel

/-- A commit with its store, and a commit of another value. -/
theorem test_meets_MapReadsTrapClearsAndCommits_commit :
    acknowledged base 0x2C = true ∧ (after (.commit 0x2C 0x70 [1]) base).store.busy = true
    ∧ after (.commit 0x2C 0x70 [2]) base = base
    ∧ (after .storeBegin { base with store := { base.store with busy := true } }).store.storing = true
    ∧ (after .storeBegin { base with store := { base.store with busy := true } }).store.image.checkOk = false
    ∧ after .storeBegin base = base
    ∧ (after .storeCompletion { base with store := { base.store with busy := true, storing := true } }).store.busy = false
    ∧ after .storeCompletion base = base := by decide +kernel

/-- Slot 3 has a staged amendment of B, a frame of B held and frames of both links queued; slot 4 owes A the answer to a
CLOSE; channel 1 has a record of each link. -/
def owing : State :=
  let s := queued .A [{ frame 101 .A with tag := 21 }] (queued .B [{ frame 101 .B with tag := 22 }, { frame 102 .B with
    tag := 23, owed := false }] (carrying { stream with
      staged := some { shape := shape, rate := 100, tag := 11, link := .B } } base))
  let streams := s.streams.set 4 { stream with
    state := .draining, pendingClose := some { tag := 12, link := .A, owed := true } }
  { s with
    streams := streams
    admission := { sum := claimSum streams s.store.active.floor, oversub := false }
    scheds := s.scheds.set 3 { s.scheds[3] with
      groups := [frameGroup timing shape 0 1000 { frame 100 .B with tag := 24 } true [9]] }
    traps := { s.traps with device := 8 }
    channels := s.channels.set 1 { Channel.initial with
      config := some { template := template, pb := 1024 }
      queue := [{ tag := 31, segments := [], total := 20000, sent := 3, granted := 1, link := .B, owed := true },
        { tag := 32, segments := [], total := 20000, sent := 0, granted := 0, link := .A, owed := true }] } }

/-- On each link the DISCARDED results of amendments and CLOSEs by slot, of frames HELD before QUEUED, of bulk records, then
RESET (R88, R160, R191): link, kind and tag. Device traps stay (R170). -/
theorem test_meets_PacingResetClearsThePacingState :
    acknowledged owing 0x2C = true ∧ AdmissionInv owing
    ∧ ((after (.pacingReset 0x2C 0x71 [1]) owing).outputs.filterMap fun o =>
        match o with
        | .completion l _ c => some (l, c.kind, c.tag)
        | _ => none)
      = [(.B, .result .discarded, 11), (.A, .result .discarded, 12), (.B, .result .discarded, 24),
        (.A, .result .discarded, 21), (.B, .result .discarded, 22), (.B, .result .discarded, 31),
        (.A, .result .discarded, 32), (.A, .notice .reset, 0), (.B, .notice .reset, 0)]
    ∧ (after (.pacingReset 0x2C 0x71 [1]) owing).traps.device = 8 := by
  unfold AdmissionInv
  decide +kernel

/-! ## Invariants -/

/-- Every invariant of Safety.lean holds of the part with a running stream, so that the statements about a step have
states to speak of; SettingsInv and CreditInv of its factory settings and full credit among them. -/
theorem test_meets_EveryStepStatements :
    ClockInv live ∧ (∀ l, live.clock.holder = some l → (live.links.get l).up = true) ∧ MembershipInv live
    ∧ EndInv (contending [marker .endMark 2000000] [] 0 |> fun s =>
        { s with streams := s.streams.set 3 { stream with state := .draining } })
    ∧ SettingsInv live ∧ CreditInv live ∧ StagingInv live ∧ AdmissionInv live
    ∧ ((∀ i : Slot, (queueOf live .A i).length ≤ 4 ∧ (queueOf live .B i).length ≤ 4)
      ∧ ∀ c : Chan, live.channels[c].queue.length ≤ 32 ∧ live.channels[c].blocks.length ≤ 8)
    ∧ step { live with pending := [.nominalNanosecond] } = .next (after .nominalNanosecond live) := by
  refine ⟨?_, fun l h => (by cases l <;> revert h <;> decide +kernel), membership_of_test (by decide +kernel),
    ends_of_test (by decide +kernel), ?_, ?_, ?_, ?_, by decide +kernel, rfl⟩
  · unfold ClockInv; decide +kernel
  · unfold SettingsInv; decide +kernel
  · unfold CreditInv; decide +kernel
  · unfold StagingInv; decide +kernel
  · unfold AdmissionInv; decide +kernel

/-- The bytes of a completion (12.3): a SUBMIT's TOO_LATE on slot 3, with tag, frame number and request head; a MEMBERSHIP
notice. -/
theorem test_completion_bytes :
    completionBytes { mkResult .tooLate 3 0x04030201 with fn := 0x08070605, reqHead := 0x0201 }
      = [1, 23, 3, 0, 1, 2, 3, 4, 5, 6, 7, 8, 0, 0, 0, 0, 0, 0, 0, 0, 0, 0, 0, 0, 1, 2, 0, 0, 0, 0, 0, 0]
    ∧ completionBytes { mkNotice .membership 3 with b26 := 4, b29 := 1 }
      = [2, 3, 3, 0, 0, 0, 0, 0, 0, 0, 0, 0, 0, 0, 0, 0, 0, 0, 0, 0, 0, 0, 0, 0, 0, 0, 4, 0, 0, 1, 0, 0] := by
  decide +kernel

/-- Words: the table gives no bits (log 33). -/
theorem test_no_words : decodeTableWord 8 12 = none ∧ State.reset.withFetchWord 8 12 = State.reset := ⟨rfl, rfl⟩

end Sys2Proof.Tests
end

section
/-!
Serial order (R1). One account of the distance a - b at every width serves the frame numbers (32 bits) and the
feedback sequence numbers (16 bits).
-/
namespace Sys2Proof.SerialOrder

open Sys2Proof.Machine

variable {w : Nat}

/-- The distance from b up to a, on the numbers themselves. -/
theorem toNat_sub_eq_mod (a b : BitVec w) : (a - b).toNat = (a.toNat + 2 ^ w - b.toNat) % 2 ^ w := by
  rw [BitVec.toNat_sub', Nat.add_sub_assoc b.isLt.le]

/-- Going up from b to a and on from a to b is once round the ring. -/
theorem toNat_sub_add_toNat_sub_swap (a b : BitVec w) (hne : 1 ≤ (a - b).toNat) :
    (a - b).toNat + (b - a).toNat = 2 ^ w := by
  have hlt : (a - b).toNat < 2 ^ w := (a - b).isLt
  have hswap : (b - a).toNat = 2 ^ w - (a - b).toNat := by
    rw [← neg_sub a b, BitVec.toNat_neg, Nat.mod_eq_of_lt (by omega)]
  omega

/-- Two distances below half the ring cannot make up the whole ring, so a reach k below half of it orders one way. -/
theorem not_within_both_ways {k : Nat} (hk : k + k < 2 ^ w) (a b : BitVec w) :
    ¬ ((1 ≤ (a - b).toNat ∧ (a - b).toNat ≤ k) ∧ (1 ≤ (b - a).toNat ∧ (b - a).toNat ≤ k)) := by
  rintro ⟨⟨hne, hab⟩, -, hba⟩
  have hround := toNat_sub_add_toNat_sub_swap a b hne
  omega

theorem newer32_iff (a b : BitVec 32) :
    newer32 a b = true ↔ 1 ≤ (a - b).toNat ∧ (a - b).toNat ≤ 2 ^ 31 - 1 := decide_eq_true_iff

theorem newer16_iff (a b : BitVec 16) :
    newer16 a b = true ↔ 1 ≤ (a - b).toNat ∧ (a - b).toNat ≤ 2 ^ 15 - 1 := decide_eq_true_iff

theorem newer32_asymm (a b : BitVec 32) : ¬ (newer32 a b = true ∧ newer32 b a = true) := by
  rw [newer32_iff, newer32_iff]
  exact not_within_both_ways (by decide) a b

theorem newer16_asymm (a b : BitVec 16) : ¬ (newer16 a b = true ∧ newer16 b a = true) := by
  rw [newer16_iff, newer16_iff]
  exact not_within_both_ways (by decide) a b

/-- Settles O28, from the distance as a number and from the two distances making up the whole ring. -/
theorem serialOrderIsModular : Obligations.SerialOrderIsModular := by
  unfold Obligations.SerialOrderIsModular
  refine ⟨fun a b => ?newer32, fun a b => ?newer16, newer32_asymm, newer16_asymm⟩
  case newer32 => rw [newer32_iff, toNat_sub_eq_mod]
  case newer16 => rw [newer16_iff, toNat_sub_eq_mod]

end Sys2Proof.SerialOrder
end

section
/-!
What a command can do to a link's high-half latch (R5) and to the time role (R11 to R15), said once: apart from power-on
and from the low read itself, it keeps both latches, and the holder stands, is freed, or becomes the one link that the
command may make holder.
-/

namespace Sys2Proof.StationTime

open Sys2Proof.Machine

/-- Every link keeps its high-half latch, and the holder stands, is freed, or becomes g. -/
structure TimeKept (g : Option Link) (s t : State) : Prop where
  latch : ∀ l, (t.links.get l).latch = (s.links.get l).latch
  holder : t.clock.holder = s.clock.holder ∨ t.clock.holder = none ∨ t.clock.holder = g

namespace TimeKept

variable {g : Option Link} {s t u : State}

/-! ## Composition -/

theorem refl (s : State) : TimeKept g s s := ⟨fun _ => rfl, .inl rfl⟩

theorem trans (h : TimeKept g s t) (k : TimeKept g t u) : TimeKept g s u := by
  refine ⟨fun l => (k.latch l).trans (h.latch l), ?_⟩
  rcases k.holder with stands | moved
  · rw [stands]; exact h.holder
  · exact .inr moved

/-- A steady operation moves only rings and requests of the interfaces, and leaves the clock alone. -/
theorem steady (k : Steady t u) (h : TimeKept g s t) : TimeKept g s u := by
  refine h.trans ⟨fun l => ?_, .inl (by rw [k.clock])⟩
  have moved := k.links l
  unfold RingsMoved at moved
  rw [moved]

theorem untouched (h : TimeKept g s t) (hc : u.clock = t.clock) (hl : u.links = t.links) : TimeKept g s u :=
  h.trans ⟨fun l => by rw [hl], .inl (by rw [hc])⟩

theorem ite {c : Prop} {_ : Decidable c} (ht : TimeKept g s t) (hu : TimeKept g s u) :
    TimeKept g s (if c then t else u) := by
  split
  · exact ht
  · exact hu

theorem foldl {α : Type} {f : State → α → State} (hf : ∀ t a, TimeKept g t (f t a)) (as : List α)
    (h : TimeKept g s t) : TimeKept g s (as.foldl f t) := by
  induction as generalizing t with
  | nil => exact h
  | cons a as ih => exact ih (h.trans (hf t a))

theorem modLink {l : Link} {f : LinkIf → LinkIf} (hf : ∀ k, (f k).latch = k.latch) (h : TimeKept g s t) :
    TimeKept g s (modLink l f t) := by
  refine h.trans ⟨fun m => ?_, .inl rfl⟩
  rw [modLink_links]
  by_cases e : m = l
  · rw [e, PerLink.get_modify_same, hf]
  · rw [PerLink.get_modify_ne _ _ e]

theorem modClock {f : Clock → Clock} (hf : (f t.clock).holder = t.clock.holder) (h : TimeKept g s t) :
    TimeKept g s (modClock f t) :=
  h.trans ⟨fun _ => rfl, .inl hf⟩

theorem setHolder {x : Option Link} (hx : x = none ∨ x = g) (h : TimeKept g s t) : TimeKept g s (setHolder x t) :=
  h.trans ⟨fun _ => rfl, .inr hx⟩

/-! ## Completions and the taking of requests -/

theorem complete {l : Link} {c : Completion} (h : TimeKept g s t) : TimeKept g s (complete l c t) :=
  h.steady (.complete (.refl t) l c)

theorem respond {l : Link} {r : Record} {st : Status} (h : TimeKept g s t) : TimeKept g s (respond l r st t) :=
  h.complete

theorem respondFn {l : Link} {r : Record} {st : Status} {fn : BitVec 32} (h : TimeKept g s t) :
    TimeKept g s (respondFn l r st fn t) :=
  h.complete

theorem roleNotice {l : Link} (h : TimeKept g s t) : TimeKept g s (roleNotice l t) := h.complete

theorem membershipNotice {i : Slot} {l : Link} (h : TimeKept g s t) : TimeKept g s (membershipNotice i l t) :=
  h.complete

theorem recompute (h : TimeKept g s t) : TimeKept g s (recompute t) := h.steady (.recompute (.refl t))

theorem opportunity (h : TimeKept g s t) : TimeKept g s (opportunity t) := h.steady (.opportunity (.refl t))

theorem finish {b : State} (h : TimeKept g s t) : TimeKept g s (finish b t) := h.steady (.finish (.refl t) b)

theorem advanceHead {l : Link} (h : TimeKept g s t) : TimeKept g s (advanceHead l t) := .modLink (fun _ => rfl) h

theorem fetchNextRequest {l : Link} (h : TimeKept g s t) : TimeKept g s (fetchNextRequest l t) :=
  h.steady (.fetchNextRequest (.refl t) l)

theorem startRequestRead {l : Link} {r : Option Record} {got : List Bytes} {a : BitVec 64} {n : Nat}
    (h : TimeKept g s t) : TimeKept g s (startRequestRead l r got a n t) := by
  unfold Machine.startRequestRead
  have begun : TimeKept g s (Machine.modLink l (fun k => { k with
      request := some { record := r, got := got, expiry := nowOf t + Config.readTimeoutNs } }) t) :=
    .modLink (fun _ => rfl) h
  exact begun.untouched rfl rfl

/-- A request without parameter reads keeps what its effect keeps. -/
theorem takeRequest {row : Bool} {l : Link} {r : Record} {effect : State → State}
    (he : ∀ {t}, TimeKept g s t → TimeKept g s (effect t)) (h : TimeKept g s t) :
    TimeKept g s (takeRequest row l r effect t) :=
  .ite (he h.advanceHead).fetchNextRequest h

/-! ## A link goes DOWN (R182, R183) -/

theorem freeRole {l : Link} (h : TimeKept g s t) : TimeKept g s (freeRole l t) := by
  refine h.trans ⟨fun _ => rfl, ?_⟩
  by_cases e : t.clock.holder = some l
  · exact .inr (.inl (if_pos e))
  · exact .inl (if_neg e)

theorem orphan {i : Slot} (h : TimeKept g s t) : TimeKept g s (orphan i t) := by
  unfold Machine.orphan
  split
  · exact h.untouched rfl rfl
  · exact .steady (.closeSlot (.refl t) i) h
  · exact .steady (.closeAtOnce (.refl t) i) h
  · exact h
  · exact h

theorem loseMember {l : Link} {i : Slot} (h : TimeKept g s t) : TimeKept g s (loseMember l i t) := by
  unfold Machine.loseMember
  split
  · split
    · exact h.untouched rfl rfl
    · exact h.orphan
  · exact .ite (h.untouched rfl rfl) h

theorem slotLosesLink {l : Link} {i : Slot} (h : TimeKept g s t) : TimeKept g s (slotLosesLink l i t) :=
  .recompute (h.loseMember.untouched rfl rfl)

theorem slotLosesQueue {l : Link} {i : Slot} (h : TimeKept g s t) : TimeKept g s (slotLosesQueue l i t) :=
  h.untouched rfl rfl

theorem modGroups {i : Slot} {f : List Group → List Group} (h : TimeKept g s t) : TimeKept g s (modGroups i f t) :=
  h.untouched rfl rfl

theorem emptyEngine {l : Link} (h : TimeKept g s t) : TimeKept g s (emptyEngine l t) := h.untouched rfl rfl

theorem blocksLoseLink {l : Link} (h : TimeKept g s t) : TimeKept g s (blocksLoseLink l t) := by
  unfold Machine.blocksLoseLink
  extract_lets freed queued slots emptied settled
  have hq : TimeKept g s queued := foldl (fun t _ => (refl t).slotLosesQueue) allSlots h.freeRole
  have hs : TimeKept g s slots := foldl (fun t _ => (refl t).slotLosesLink) allSlots hq
  have he : TimeKept g s emptied := foldl (fun t _ => (refl t).modGroups) allSlots hs.emptyEngine
  have hf : TimeKept g s settled := foldl (fun t i => .steady (.settleFetch (.refl t) i) (refl t)) allSlots he
  exact foldl (fun t c => .steady (.endMatching (.refl t) c _) (refl t)) allChans hf

theorem lossNotices {l : Link} {before : Vector StreamRec 32} {i : Slot} (h : TimeKept g s t) :
    TimeKept g s (lossNotices l before i t) :=
  .ite (.ite (.steady (.raiseStream (.refl _) _ _ _) h.membershipNotice) h.membershipNotice) h

theorem announceLoss {l : Link} {before : State} (h : TimeKept g s t) : TimeKept g s (announceLoss l before t) :=
  .steady (.raiseDevice (.refl _) _) (foldl (fun t _ => (refl t).lossNotices) allSlots (.ite h.roleNotice h))

theorem linkDown {l : Link} {fault : Bool} (h : TimeKept g s t) : TimeKept g s (linkDown l fault t) :=
  .finish (.announceLoss (.blocksLoseLink (.modLink (fun _ => rfl) h)))

theorem requestFault {l : Link} (h : TimeKept g s t) : TimeKept g s (requestFault l t) := .ite h.linkDown h

end TimeKept
end Sys2Proof.StationTime
end
section
/-!
The requests keep the latches, and only a TAKE makes a holder: one lemma for the effect of each request on its block.
-/

namespace Sys2Proof.StationTime

open Sys2Proof.Machine

namespace TimeKept

variable {g : Option Link} {s t : State} {l : Link} {r : Record} {i : Slot} {c : Chan}

/-! ## Requests with parameter reads (R174, R175) -/

/-- What a judgment does if it is taken. -/
def OfJudgment (g : Option Link) : Judgment → Prop
  | .read _ _ => True
  | .short => True
  | .take effect => ∀ t, TimeKept g t (effect t)

theorem OfJudgment.ite {p : Prop} {_ : Decidable p} {a b : Judgment} (ha : OfJudgment g a) (hb : OfJudgment g b) :
    OfJudgment g (if p then a else b) := by
  split
  · exact ha
  · exact hb

theorem OfJudgment.respond {st : Status} : OfJudgment g (.take (Machine.respond l r st)) := fun t => (refl t).respond

theorem OfJudgment.respondFn {st : Status} {fn : BitVec 32} : OfJudgment g (.take (Machine.respondFn l r st fn)) :=
  fun t => (refl t).respondFn

/-- A request with parameter reads keeps what its judgment keeps; a read, and a fault that takes the link DOWN, keep the
latches and at most free the role. -/
theorem takeWithReads {row : Bool} {replies : List Bytes} {judge : State → Judgment}
    (hj : OfJudgment g (judge t)) (h : TimeKept g s t) : TimeKept g s (takeWithReads row l r replies judge t) := by
  unfold Machine.takeWithReads
  refine .ite (.ite h (.ite h.linkDown ?judged)) h
  case judged =>
    split
    next => exact h.startRequestRead
    next => exact h.linkDown
    next effect taken =>
      rw [taken] at hj
      exact ((h.advanceHead (l := l)).trans (hj _)).fetchNextRequest

/-! ## Streams -/

theorem openSlot {d : StreamDesc} (h : TimeKept g s t) : TimeKept g s (openSlot l i d t) := by
  unfold Machine.openSlot
  extract_lets r
  exact .recompute (h.untouched rfl rfl)

theorem admitOpen {d : StreamDesc} (h : TimeKept g s t) : TimeKept g s (admitOpen l r i d t) :=
  .ite h.openSlot.complete h.respond

theorem placeOpen {d : StreamDesc} (h : TimeKept g s t) : TimeKept g s (placeOpen l r d t) := by
  unfold Machine.placeOpen
  split
  · exact .ite h.admitOpen h.respond
  · split
    · exact h.admitOpen
    · exact h.respond

theorem takeOpen {bs : Bytes} (h : TimeKept g s t) : TimeKept g s (takeOpen l r bs t) := by
  unfold Machine.takeOpen
  refine .ite h.respond ?described
  case described =>
    split
    · exact h.respond
    · exact .ite h.placeOpen h.respond

theorem OfJudgment.judgeOpen (l : Link) (r : Record) (replies : List Bytes) (t : State) :
    OfJudgment g (Machine.judgeOpen l r replies t) := by
  unfold Machine.judgeOpen
  refine .ite ?inside .respond
  case inside =>
    split
    · trivial
    · exact .ite trivial fun u => (refl u).takeOpen

theorem stageAmendment {a : Amendment} (h : TimeKept g s t) : TimeKept g s (stageAmendment i a t) := by
  have staged : TimeKept g s (modStream i (fun r => { r with staged := some a }) t) := h.untouched rfl rfl
  unfold Machine.stageAmendment
  split
  · exact staged.recompute
  · exact staged.complete.recompute

theorem admitAmend {sh : Shape} (h : TimeKept g s t) : TimeKept g s (admitAmend l r i sh t) :=
  .ite h.stageAmendment h.respond

theorem OfJudgment.judgeBlock (l : Link) (r : Record) (i : Slot) (bs : Bytes) (replies : List Bytes) (t : State) :
    OfJudgment g (Machine.judgeBlock l r i bs replies t) := by
  unfold Machine.judgeBlock
  extract_lets st
  split
  · exact .respond
  · refine .ite (.ite ?inside .respond) .respond
    case inside =>
      split
      · trivial
      · exact .ite trivial fun u => (refl u).admitAmend

theorem OfJudgment.judgeAmend (l : Link) (r : Record) (replies : List Bytes) (t : State) :
    OfJudgment g (Machine.judgeAmend l r replies t) := by
  unfold Machine.judgeAmend
  split
  · exact .respond
  · refine .ite .respond (.ite .respond (.ite ?inside .respond))
    case inside =>
      split
      · trivial
      · exact .ite trivial (.judgeBlock ..)

theorem closeArmed (h : TimeKept g s t) : TimeKept g s (closeArmed l r i t) :=
  .respond (.steady (.closeSlot (.discardQueues (.discardAmendment (.refl t) i) i) i) h)

theorem closeNow (h : TimeKept g s t) : TimeKept g s (closeNow l r i t) :=
  .respond (.steady
    (.closeResult (.closeAtOnce (.discardQueues (.discardAmendment (.refl t) i) i) i) i _ _) h)

theorem becomeDraining {pc : Option PendingClose} (h : TimeKept g s t) : TimeKept g s (becomeDraining i pc t) := by
  unfold Machine.becomeDraining
  extract_lets draining emptied
  have hd : TimeKept g s draining := h.untouched rfl rfl
  have he : TimeKept g s emptied := .steady (.discardQueues (.discardAmendment (.refl draining) i) i) hd
  have appended : TimeKept g s (appendEnd i emptied) := .steady (.appendEnd (.refl emptied) i) he
  exact .ite (.steady (.judgeHead (.refl _) _ i) appended) he

theorem closeGracefully (h : TimeKept g s t) : TimeKept g s (closeGracefully l r i t) := by
  unfold Machine.closeGracefully
  split
  · exact h.respond
  · exact h.respond
  · exact h.closeNow
  · exact .ite h.closeArmed h.respond
  · exact .ite h.becomeDraining h.respond

theorem closeImmediately (h : TimeKept g s t) : TimeKept g s (closeImmediately l r i t) := by
  unfold Machine.closeImmediately
  split
  · exact h.respond
  · exact h.closeNow
  · exact .ite h.closeArmed h.respond
  · exact .ite h.closeNow h.respond
  · exact .ite h.closeNow h.respond

theorem requestCloseGraceful (h : TimeKept g s t) : TimeKept g s (requestCloseGraceful l r t) := by
  unfold Machine.requestCloseGraceful
  split
  · exact h.respond
  · exact .ite h.closeGracefully h.respond

theorem requestCloseImmediate (h : TimeKept g s t) : TimeKept g s (requestCloseImmediate l r t) := by
  unfold Machine.requestCloseImmediate
  split
  · exact h.respond
  · exact h.closeImmediately

theorem joinStandby (h : TimeKept g s t) : TimeKept g s (joinStandby l i t) := by
  have joined : TimeKept g s (resetPreference i (modStream i (fun r => { r with standby := some l }) t)) :=
    h.untouched rfl rfl
  unfold Machine.joinStandby
  split
  · exact joined.membershipNotice
  · exact joined

theorem requestJoin (h : TimeKept g s t) : TimeKept g s (requestJoin l r t) := by
  unfold Machine.requestJoin
  split
  · exact h.respond
  · exact .ite h.respond (.ite h.respond (.ite h.respond (.ite h.respond h.joinStandby.respond)))

theorem leaveStandby (h : TimeKept g s t) : TimeKept g s (leaveStandby l i t) := by
  unfold Machine.leaveStandby
  extract_lets left discarded
  have hl : TimeKept g s (unmark l i (resetPreference i left)) := h.untouched rfl rfl
  have hd : TimeKept g s discarded := .steady (.discardQueue (.refl _) l i) hl
  split
  · exact hd.membershipNotice
  · exact hd

theorem requestLeave (h : TimeKept g s t) : TimeKept g s (requestLeave l r t) := by
  unfold Machine.requestLeave
  split
  · exact h.respond
  · exact .ite h.respond (.ite h.leaveStandby.respond h.respond)

theorem swapMembers (h : TimeKept g s t) : TimeKept g s (swapMembers l i t) :=
  .membershipNotice (h.untouched rfl rfl)

theorem adoptHolding (h : TimeKept g s t) : TimeKept g s (adoptHolding l i t) :=
  .membershipNotice (h.untouched rfl rfl)

theorem requestAdopt (h : TimeKept g s t) : TimeKept g s (requestAdopt l r t) := by
  unfold Machine.requestAdopt
  split
  · exact h.respond
  · split
    · exact h.respond
    · exact h.respond
    · exact h.respond
    · exact .ite h.respond (.ite h.swapMembers.respond h.respond)
    · exact h.adoptHolding.respond

/-! ## Frames -/

theorem takeSubmit {segs ancs : List Piece} (h : TimeKept g s t) : TimeKept g s (takeSubmit l r i segs ancs t) := by
  unfold Machine.takeSubmit
  extract_lets f
  split
  · exact h.respondFn
  · exact h.untouched rfl rfl

theorem OfJudgment.judgeList (l : Link) (r : Record) (i : Slot) (replies : List Bytes) (t : State) :
    OfJudgment g (Machine.judgeList l r i replies t) := by
  unfold Machine.judgeList
  refine .ite ?inside .respondFn
  case inside =>
    split
    · trivial
    · exact .ite trivial fun u => (refl u).takeSubmit

theorem OfJudgment.judgeSubmit (l : Link) (r : Record) (replies : List Bytes) (t : State) :
    OfJudgment g (Machine.judgeSubmit l r replies t) := by
  unfold Machine.judgeSubmit
  split
  · exact .respondFn
  · exact .ite .respondFn (.ite .respondFn (.ite .respondFn (.ite (fun u => (refl u).takeSubmit) (.judgeList ..))))

theorem cancelMatching {p : FrameRecord → Bool} (h : TimeKept g s t) :
    TimeKept g s (cancelMatching l r i p t) := by
  have removed : TimeKept g s (modQueue l i (fun q => q.filter fun f => !p f) t) := h.untouched rfl rfl
  exact .ite h.respondFn (.respondFn (.steady (.retireAll (.refl _) i _ _) removed))

theorem requestCancelOne (h : TimeKept g s t) : TimeKept g s (requestCancelOne l r t) := by
  unfold Machine.requestCancelOne
  split
  · exact h.respondFn
  · exact .ite h.cancelMatching h.respondFn

theorem requestCancelThrough (h : TimeKept g s t) : TimeKept g s (requestCancelThrough l r t) := by
  unfold Machine.requestCancelThrough
  split
  · exact h.respondFn
  · exact h.cancelMatching

/-! ## Bulk channels -/

theorem takeSetup {bs : Bytes} (h : TimeKept g s t) : TimeKept g s (takeSetup l r c bs t) := by
  have configured : TimeKept g s (configure c bs t) := h.untouched rfl rfl
  exact .ite configured.respond.opportunity h.respond

theorem OfJudgment.judgeSetup (l : Link) (r : Record) (replies : List Bytes) (t : State) :
    OfJudgment g (Machine.judgeSetup l r replies t) := by
  unfold Machine.judgeSetup
  split
  · exact .respond
  · refine .ite .respond (.ite .respond (.ite ?inside .respond))
    case inside =>
      split
      · trivial
      · exact .ite trivial fun u => (refl u).takeSetup

theorem requestClear (h : TimeKept g s t) : TimeKept g s (requestClear l r t) := by
  unfold Machine.requestClear
  split
  · exact h.respond
  next c _ =>
    have cleared : TimeKept g s (modChannel c (fun ch => { ch with config := none }) t) := h.untouched rfl rfl
    exact .ite h.respond (.ite h.respond cleared.respond.opportunity)

theorem takePost {segs : List Piece} (h : TimeKept g s t) : TimeKept g s (takePost l r c segs t) :=
  .ite h.respond (.ite (h.untouched rfl rfl) h.respond)

theorem OfJudgment.judgePostList (l : Link) (r : Record) (c : Chan) (replies : List Bytes) (t : State) :
    OfJudgment g (Machine.judgePostList l r c replies t) := by
  unfold Machine.judgePostList
  refine .ite ?inside .respond
  case inside =>
    split
    · trivial
    · exact .ite trivial fun u => (refl u).takePost

theorem OfJudgment.judgePost (l : Link) (r : Record) (replies : List Bytes) (t : State) :
    OfJudgment g (Machine.judgePost l r replies t) := by
  unfold Machine.judgePost
  split
  · exact .respond
  · exact .ite .respond (.ite .respond (.ite .respond (.ite .respond
      (.ite (fun u => (refl u).takePost) (.judgePostList ..)))))

theorem abortResults {ch : Channel} {rs : List BulkRecord} (h : TimeKept g s t) :
    TimeKept g s (abortResults c ch rs t) :=
  foldl (fun t x => .steady (.bulkResult (.refl t) c _ _ x) (refl t)) rs h

theorem requestAbortOne (h : TimeKept g s t) : TimeKept g s (requestAbortOne l r t) := by
  unfold Machine.requestAbortOne
  split
  · exact h.respond
  · refine .ite h.respond ?named
    case named =>
      extract_lets p
      split
      · exact h.respond
      · exact .respond (.abortResults (.steady (.endFirst (.refl t) _ p) h))

theorem requestAbortAll (h : TimeKept g s t) : TimeKept g s (requestAbortAll l r t) := by
  unfold Machine.requestAbortAll
  split
  · exact h.respond
  · exact .ite h.respond (.respond (.abortResults (.steady (.endMatching (.refl t) _ _) h)))

/-! ## Windows, traps and reports -/

theorem setWindow (h : TimeKept g s t) : TimeKept g s (setWindow l r t) :=
  .ite (.respond (.modLink (fun _ => rfl) h)) h.respond

theorem requestClearDevice (h : TimeKept g s t) : TimeKept g s (requestClearDevice l r t) :=
  .ite (.respond (h.untouched rfl rfl)) h.respond

theorem requestClearStream (h : TimeKept g s t) : TimeKept g s (requestClearStream l r t) := by
  unfold Machine.requestClearStream
  split
  · exact h.respond
  · exact .ite (.respond (h.untouched rfl rfl)) h.respond

theorem answerReport {record : Bytes} {zero : State → State} (hz : ∀ t, TimeKept g t (zero t))
    (h : TimeKept g s t) : TimeKept g s (answerReport l r record zero t) := by
  have written : TimeKept g s (emit (.reportWrite l (recU64 r 16) record) t) := h.untouched rfl rfl
  exact .ite (.respond (.ite (written.trans (hz _)) written)) h.respond

theorem requestReportStream (h : TimeKept g s t) : TimeKept g s (requestReportStream l r t) := by
  unfold Machine.requestReportStream
  split
  · exact h.respond
  · exact .ite (.answerReport (fun t => (refl t).untouched rfl rfl) h) h.respond

theorem requestReportDevice (h : TimeKept g s t) : TimeKept g s (requestReportDevice l r t) :=
  .answerReport (fun t => (refl t).untouched rfl rfl) h

/-! ## Station time and the role (R6 to R12) -/

theorem timeTrim (h : TimeKept g s t) : TimeKept g s (timeTrim l r t) :=
  .ite h.respond (.ite h.respond (.respond (.modClock rfl h)))

theorem moveTimers {x : Int} (h : TimeKept g s t) : TimeKept g s (moveTimers x t) := by
  have interface : ∀ (u : State) (m : Link),
      TimeKept g u (Machine.modLink m (moveRequest x) (modEngine m (moveAttempts x) u)) :=
    fun u m => .modLink (fun _ => rfl) ((refl u).untouched rfl rfl)
  unfold Machine.moveTimers
  extract_lets trip links
  have ht : TimeKept g s trip := h.untouched rfl rfl
  have hl : TimeKept g s links := foldl interface bothLinks ht
  exact foldl (f := fun u c => modChannel c (moveHold x) u) (fun u _ => (refl u).untouched rfl rfl) allChans hl

theorem jumpTo {target : Int} (h : TimeKept g s t) : TimeKept g s (jumpTo target t) := by
  unfold Machine.jumpTo
  extract_lets jumped
  have hj : TimeKept g s jumped := .modClock rfl h
  exact foldl (fun u i => .steady (.expireHead (.refl u) i) (refl u)) allSlots hj.moveTimers

theorem stepNow (h : TimeKept g s t) : TimeKept g s (stepNow l r t) := .ite h.jumpTo.respond h.respond

theorem stepAbsorbed (h : TimeKept g s t) : TimeKept g s (stepAbsorbed l r t) :=
  .ite h.respond (.respond (.steady (.raiseDevice (.refl _) _) (.modClock rfl h)))

theorem timeStep (h : TimeKept g s t) : TimeKept g s (timeStep l r t) :=
  .ite h.respond (.ite h.respond (.ite h.stepAbsorbed h.stepNow))

/-- A TAKE may make its own link the holder (R11). -/
theorem roleRequestTake (h : TimeKept (some l) s t) : TimeKept (some l) s (roleRequestTake l r t) :=
  .ite h.respond (.ite h.respond (.ite (.respond (.roleNotice (.setHolder (.inr rfl) h))) h.respond))

theorem roleRequestRelease (h : TimeKept g s t) : TimeKept g s (roleRequestRelease l r t) :=
  .ite (.respond (.roleNotice (.setHolder (.inl rfl) h))) h.respond

end TimeKept
end Sys2Proof.StationTime
end
section
/-!
The events and register writes keep the latches, and only a bind makes a holder: one lemma for each shared operation that
is not steady.
-/

namespace Sys2Proof.StationTime

open Sys2Proof.Machine

namespace TimeKept

variable {g : Option Link} {s t : State} {l : Link} {i : Slot} {c : Chan}

/-! ## The passing of time (R2 to R4) -/

theorem advanceTime {n : Nat} (h : TimeKept g s t) : TimeKept g s (advanceTime n t) := by
  have later : TimeKept g s (Machine.modClock (fun c => { c with time := laterTime c.time n }) t) := .modClock rfl h
  exact .ite (later.untouched rfl rfl) later

theorem trimmedNanosecond (h : TimeKept g s t) : TimeKept g s (trimmedNanosecond t) :=
  .ite h.advanceTime (.ite (.advanceTime (.modClock rfl h))
    (.ite (.advanceTime (.modClock rfl h)) (.advanceTime (.modClock rfl h))))

theorem trimmedNanoseconds {n : Nat} (h : TimeKept g s t) : TimeKept g s (trimmedNanoseconds n t) := by
  induction n generalizing t with
  | zero => exact h
  | succ n ih => exact ih h.trimmedNanosecond

theorem nominalTick (h : TimeKept g s t) : TimeKept g s (nominalTick t) := .trimmedNanoseconds (.modClock rfl h)

/-! ## Binding and the register window (R172 to R174, R178) -/

/-- A bind may make its own link the holder (R14). -/
theorem bindLink (h : TimeKept (some l) s t) : TimeKept (some l) s (bindLink l t) := by
  have bound : TimeKept (some l) s (Machine.modLink l boundInterface t) := .modLink (fun _ => rfl) h
  exact .ite h (.ite (.modLink (fun _ => rfl) h) (.ite (.modLink (fun _ => rfl) h)
    (.ite (.roleNotice (.roleNotice (.setHolder (.inr rfl) bound))) bound)))

theorem unbindLink (h : TimeKept g s t) : TimeKept g s (unbindLink l t) := .ite h.linkDown h

theorem loseLink (h : TimeKept g s t) : TimeKept g s (loseLink l t) := .ite h.linkDown h

theorem resetFunction (h : TimeKept g s t) : TimeKept g s (resetFunction l t) := .modLink (fun _ => rfl) h.loseLink

theorem writeTail {v : BitVec 32} (h : TimeKept g s t) : TimeKept g s (writeTail l v t) :=
  .ite (.fetchNextRequest (.modLink (fun _ => rfl) h)) h

theorem writeHead {v : BitVec 32} (h : TimeKept g s t) : TimeKept g s (writeHead l v t) := by
  have rearmed : TimeKept g s (Machine.modLink l (fun k => { k with
      cplHead := v.toNat % k.cplEntries.toNat, irq := .armed }) t) := .modLink (fun _ => rfl) h
  have sent := rearmed.modLink (l := l) (f := fun k => { k with irq := .sent }) fun _ => rfl
  exact .ite (.ite (sent.untouched rfl rfl) rearmed) h

/-- A write to the bind control binds for the value 1 only (R172, R173). -/
theorem writeBind {v : BitVec 32} (hv : v = 1 → g = some l) (h : TimeKept g s t) : TimeKept g s (writeBind l v t) := by
  unfold Machine.writeBind
  split
  next one =>
    obtain rfl := hv one
    exact h.bindLink
  next => exact .ite h.unbindLink h

theorem latch_writeGeometry (offset : Nat) (v : BitVec 32) (k : LinkIf) :
    (writeGeometry offset v k).latch = k.latch := by
  unfold writeGeometry
  split_ifs <;> rfl

/-- Of the register window only the bind control, written with 1, can make a holder. -/
theorem writeWindow {offset : Nat} {v : BitVec 32} (hv : offset = 0x04 ∧ v = 1 → g = some l) (h : TimeKept g s t) :
    TimeKept g s (writeWindow l offset v t) := by
  unfold Machine.writeWindow
  split
  next control => exact .writeBind (fun one => hv ⟨control, one⟩) h
  next => exact .ite h.writeTail (.ite h.writeHead (.modLink (latch_writeGeometry offset v) h))

/-! ## The frame selection event (R91) -/

theorem modSelector {f : Selector → Selector} (h : TimeKept g s t) : TimeKept g s (modSelector i f t) :=
  h.untouched rfl rfl

theorem modStream {f : StreamRec → StreamRec} (h : TimeKept g s t) : TimeKept g s (modStream i f t) :=
  h.untouched rfl rfl

theorem count {f : StreamCounters → StreamCounters} (h : TimeKept g s t) : TimeKept g s (count i f t) :=
  h.untouched rfl rfl

theorem popQueue (h : TimeKept g s t) : TimeKept g s (popQueue l i t) := h.untouched rfl rfl

theorem clearMarks (h : TimeKept g s t) : TimeKept g s (clearMarks i t) := h.untouched rfl rfl

theorem retire {r : FrameRecord} {st : Status} {a b n : Nat} (h : TimeKept g s t) :
    TimeKept g s (retire i r st a b n t) :=
  h.steady (.retire (.refl t) i r st a b n)

theorem raiseDevice {d : DeviceTrap} (h : TimeKept g s t) : TimeKept g s (raiseDevice d t) :=
  h.steady (.raiseDevice (.refl t) d)

theorem raiseStream {d : StreamTrap} {fn : BitVec 32} (h : TimeKept g s t) : TimeKept g s (raiseStream i d fn t) :=
  h.steady (.raiseStream (.refl t) i d fn)

theorem addGroup {d : Group} (h : TimeKept g s t) : TimeKept g s (addGroup i d t) := h.steady (.addGroup (.refl t) i d)

theorem removeOlder (h : TimeKept g s t) : TimeKept g s (removeOlder i t) := h.steady (.removeOlder (.refl t) i)

theorem applyAmendment (h : TimeKept g s t) : TimeKept g s (applyAmendment i t) := by
  unfold Machine.applyAmendment
  split
  · exact h
  · exact h.modStream.recompute.complete

theorem retireStale {fn : BitVec 32} (h : TimeKept g s t) : TimeKept g s (retireStale fn i l t) := by
  have kept : TimeKept g s (modQueue l i (fun q => q.dropWhile fun r => newer32 fn r.fn) t) := h.untouched rfl rfl
  exact kept.steady (.retireAll (.refl _) i _ _)

theorem judgePresence {fn : BitVec 32} (h : TimeKept g s t) : TimeKept g s (judgePresence fn i l t) := by
  unfold Machine.judgePresence
  split
  · exact h
  · exact .ite h.popQueue.retire (.ite h h.popQueue.retire)

theorem switchNotices {fn : BitVec 32} {sent : Option Link} {why : SwitchReason} (h : TimeKept g s t) :
    TimeKept g s (switchNotices i fn sent why t) := by
  unfold Machine.switchNotices
  exact foldl (fun u _ => (refl u).complete) (memberLinks t.streams[i]) h

theorem considerReturn {fn : BitVec 32} (h : TimeKept g s t) : TimeKept g s (considerReturn i fn t) :=
  .ite h.modSelector.count.switchNotices h.modSelector

theorem considerSwitch {fn : BitVec 32} {ch : Choice} (h : TimeKept g s t) :
    TimeKept g s (considerSwitch i fn ch t) :=
  .ite h.modSelector.count.raiseStream.switchNotices h.modSelector

theorem shadowUnsent {fn : BitVec 32} {ch : Choice} (h : TimeKept g s t) :
    TimeKept g s (shadowUnsent fn i ch l t) := by
  unfold Machine.shadowUnsent
  split
  · exact h
  · exact .ite h h.popQueue.retire

theorem scheduleNext {k : Nat} (h : TimeKept g s t) : TimeKept g s (scheduleNext i k t) := h.untouched rfl rfl

theorem addRepeat {k : Nat} (h : TimeKept g s t) : TimeKept g s (addRepeat i k t) := h.addGroup

theorem holdRecord {k : Nat} {r : FrameRecord} (h : TimeKept g s t) : TimeKept g s (holdRecord i k l r t) :=
  .addGroup (h.untouched rfl rfl)

theorem starveRecord {k : Nat} {r : FrameRecord} (h : TimeKept g s t) : TimeKept g s (starveRecord i k l r t) :=
  .addRepeat (.raiseDevice (h.popQueue.retire.untouched rfl rfl))

theorem handOn {k : Nat} {ch : Choice} (h : TimeKept g s t) : TimeKept g s (handOn i k ch t) := by
  unfold Machine.handOn
  extract_lets fn removed
  have hr : TimeKept g s removed := h.removeOlder
  split
  · exact hr.count.raiseStream.addRepeat
  · exact .ite hr.count.holdRecord hr.starveRecord

theorem selectActive {k : Nat} (h : TimeKept g s t) : TimeKept g s (selectActive i k t) := by
  unfold Machine.selectActive
  extract_lets fn amended running fresh judged returned ch switched shadowed handed
  have hr : TimeKept g s running := h.applyAmendment.modStream
  have hf : TimeKept g s fresh := foldl (fun u _ => (refl u).retireStale) (memberLinks running.streams[i]) hr
  have hj : TimeKept g s judged := foldl (fun u _ => (refl u).judgePresence) (memberLinks fresh.streams[i]) hf
  have hw : TimeKept g s switched := hj.considerReturn.considerSwitch
  have hu : TimeKept g s shadowed := foldl (fun u _ => (refl u).shadowUnsent) (memberLinks switched.streams[i]) hw
  have hh : TimeKept g s handed := hu.scheduleNext.handOn.clearMarks
  exact .ite hh.becomeDraining hh

theorem endHolding (h : TimeKept g s t) : TimeKept g s (endHolding i t) :=
  .membershipNotice (.membershipNotice (h.steady (.closeAtOnce (.refl t) i)))

theorem selectHolding {k : Nat} (h : TimeKept g s t) : TimeKept g s (selectHolding i k t) :=
  .ite h.scheduleNext.modStream.count.removeOlder.addRepeat.clearMarks h.scheduleNext.endHolding

theorem selectionEvent (h : TimeKept g s t) : TimeKept g s (selectionEvent i t) := by
  unfold Machine.selectionEvent
  refine .ite ?due h
  case due =>
    split
    · exact h.selectActive
    · exact h.selectActive
    · exact h.selectHolding
    · exact h
    · exact h

/-! ## The fetch engines (R110 to R114) -/

theorem modEngine {f : FetchEngine → FetchEngine} (h : TimeKept g s t) : TimeKept g s (modEngine l f t) :=
  h.untouched rfl rfl

theorem markFetchFail (h : TimeKept g s t) : TimeKept g s (markFetchFail l i t) := .ite h.modSelector h

theorem frameJobFailed {k : Nat} (h : TimeKept g s t) : TimeKept g s (frameJobFailed l i k t) := by
  unfold Machine.frameJobFailed
  split
  · exact h
  · exact .steady (.settleFetch (.refl _) i) h.modGroups.markFetchFail.raiseStream

theorem failJob {j : Job} (h : TimeKept g s t) : TimeKept g s (failJob l j t) := by
  unfold Machine.failJob
  extract_lets dropped
  have hd : TimeKept g s dropped := h.modEngine
  split
  · exact hd.frameJobFailed
  · exact .steady (.bulkJobFailed (.refl _) _) hd

theorem countRetry {w : JobWork} (h : TimeKept g s t) : TimeKept g s (countRetry w t) := by
  cases w with
  | frame i k => exact h.untouched rfl rfl
  | bulk c b => exact h.untouched rfl rfl

theorem failAttempt {a : Attempt} (h : TimeKept g s t) : TimeKept g s (failAttempt l a t) := by
  unfold Machine.failAttempt
  extract_lets dropped
  have hd : TimeKept g s dropped := h.modEngine
  split
  · exact hd
  · exact .ite hd.modEngine.countRetry hd.failJob

theorem startRead {ref : RetryRef} {r : Read} (h : TimeKept g s t) : TimeKept g s (startRead l ref r t) :=
  h.untouched rfl rfl

theorem issueRead (h : TimeKept g s t) : TimeKept g s (issueRead l t) := by
  unfold Machine.issueRead
  extract_lets e
  refine .ite ?room h
  case room =>
    split
    · exact h
    · split
      · exact h
      · exact .ite h.startRead h.failJob

theorem storeRead {w : JobWork} {r : Read} {data : Bytes} (h : TimeKept g s t) :
    TimeKept g s (storeRead w r data t) := by
  cases w with
  | frame i k =>
    show TimeKept g s (storeFrameRead i k r data t)
    unfold storeFrameRead
    split
    · exact h
    · split
      · exact h
      · exact h.untouched rfl rfl
  | bulk c b =>
    show TimeKept g s (storeBulkRead c b r data t)
    unfold storeBulkRead
    split
    · exact h
    · exact h.untouched rfl rfl

theorem completeRead {n : Nat} {data : Bytes} (h : TimeKept g s t) : TimeKept g s (completeRead l n data t) := by
  unfold Machine.completeRead
  split
  · exact h
  · split
    · exact h
    · exact .ite h.failAttempt h.modEngine.storeRead

theorem timeoutRead {n : Nat} (h : TimeKept g s t) : TimeKept g s (timeoutRead l n t) := by
  unfold Machine.timeoutRead
  split
  · exact h
  · exact .ite h.failAttempt h

theorem errorRead {n : Nat} (h : TimeKept g s t) : TimeKept g s (errorRead l n t) := by
  unfold Machine.errorRead
  split
  · exact h
  · exact h.failAttempt

theorem askBlock (h : TimeKept g s t) : TimeKept g s (askBlock c t) := by
  unfold Machine.askBlock
  split
  · exact .ite (h.untouched rfl rfl) h
  · exact h

/-! ## The uplink, feedback and hold timers (R131 to R158) -/

theorem reportEligible (h : TimeKept g s t) : TimeKept g s (reportEligible i t) := .ite h.opportunity h

theorem reportCredit (h : TimeKept g s t) : TimeKept g s (reportCredit t) := .ite h.opportunity h

theorem endPacket (h : TimeKept g s t) : TimeKept g s (endPacket t) := .ite (.opportunity (h.untouched rfl rfl)) h

theorem loseUplink (h : TimeKept g s t) : TimeKept g s (loseUplink t) := .ite h (.raiseDevice (h.untouched rfl rfl))

theorem restoreUplink (h : TimeKept g s t) : TimeKept g s (restoreUplink t) :=
  .ite (.opportunity (h.untouched rfl rfl)) h

theorem expireTrip (h : TimeKept g s t) : TimeKept g s (expireTrip t) := by
  unfold Machine.expireTrip
  split
  · exact h
  · exact .ite (h.untouched rfl rfl) h

theorem actFeedback {hold : Bool} {seq : BitVec 16} (h : TimeKept g s t) : TimeKept g s (actFeedback c hold seq t) :=
  .ite (.ite (h.untouched rfl rfl) (h.untouched rfl rfl)) (h.untouched rfl rfl)

theorem receiveFrame {frame : Bytes} (h : TimeKept g s t) : TimeKept g s (receiveFrame frame t) := by
  unfold Machine.receiveFrame
  refine .ite ?ready h
  case ready =>
    split
    · exact h
    · exact h.untouched rfl rfl
    · exact h.actFeedback

theorem expireHold (h : TimeKept g s t) : TimeKept g s (expireHold c t) := by
  unfold Machine.expireHold
  split
  · exact h
  · exact .ite (.raiseDevice (h.untouched rfl rfl)) h

/-! ## The management port and the store (R186 to R191) -/

theorem recallDone {x : Settings} (h : TimeKept g s t) : TimeKept g s (recallDone x t) := by
  unfold Machine.recallDone
  extract_lets stored addressed cut
  have hc : TimeKept g s cut := h.untouched rfl rfl
  exact hc.untouched rfl rfl

theorem endRecall (h : TimeKept g s t) : TimeKept g s (endRecall t) :=
  .ite h (.ite h.recallDone h.recallDone.raiseDevice)

theorem writeSettings {ws : List (Nat × Byte)} (h : TimeKept g s t) : TimeKept g s (writeSettings ws t) := by
  unfold Machine.writeSettings
  extract_lets keep active stored cut
  have hc : TimeKept g s cut := h.untouched rfl rfl
  exact .ite h hc.recompute

theorem deviceByteWritten {w : Nat × Byte} (h : TimeKept g s t) : TimeKept g s (deviceByteWritten t w) :=
  .ite (h.untouched rfl rfl) (.ite (h.untouched rfl rfl) h)

theorem summaryByteWritten {w : Nat × Byte} (h : TimeKept g s t) : TimeKept g s (summaryByteWritten i t w) :=
  .ite (h.untouched rfl rfl) h

theorem writeTraps {ws : List (Nat × Byte)} (h : TimeKept g s t) : TimeKept g s (writeTraps ws t) := by
  have device : TimeKept g s (ws.foldl Machine.deviceByteWritten t) :=
    foldl (fun u _ => (refl u).deviceByteWritten) ws h
  have slot : ∀ (u : State) (i : Slot), TimeKept g u (ws.foldl (Machine.summaryByteWritten i) u) :=
    fun u i => foldl (fun v _ => (refl v).summaryByteWritten) ws (refl u)
  exact foldl slot allSlots device

theorem closeResult {pc : Option PendingClose} {st : Status} (h : TimeKept g s t) :
    TimeKept g s (closeResult i pc st t) :=
  h.steady (.closeResult (.refl t) i pc st)

theorem resetStreamAnswers (h : TimeKept g s t) : TimeKept g s (resetStreamAnswers i t) := by
  unfold Machine.resetStreamAnswers
  dsimp only
  refine closeResult ?_
  split
  · exact h.complete
  · exact h

theorem discardRecord {r : FrameRecord} (h : TimeKept g s t) : TimeKept g s (discardRecord i r t) := .ite h.complete h

theorem resetFrameAnswers (h : TimeKept g s t) : TimeKept g s (resetFrameAnswers i t) :=
  foldl (fun u _ => (refl u).discardRecord) (heldRecords t i ++ queueOf t .A i ++ queueOf t .B i) h

theorem resetBulkAnswers (h : TimeKept g s t) : TimeKept g s (resetBulkAnswers c t) :=
  foldl (fun u r => .steady (.bulkResult (.refl u) c _ _ r) (refl u)) t.channels[c].queue h

theorem resetAnswers (h : TimeKept g s t) : TimeKept g s (resetAnswers t) := by
  unfold Machine.resetAnswers
  extract_lets streams frames bulk
  have hs : TimeKept g s streams := foldl (fun u _ => (refl u).resetStreamAnswers) allSlots h
  have hf : TimeKept g s frames := foldl (fun u _ => (refl u).resetFrameAnswers) allSlots hs
  have hb : TimeKept g s bulk := foldl (fun u _ => (refl u).resetBulkAnswers) allChans hf
  exact foldl (fun u _ => (refl u).complete) bothLinks hb

theorem resetBlocks (h : TimeKept g s t) : TimeKept g s (resetBlocks t) := by
  unfold Machine.resetBlocks
  exact .recompute (h.untouched rfl rfl)

theorem pacingResetNow (h : TimeKept g s t) : TimeKept g s (pacingResetNow t) := h.resetAnswers.resetBlocks

theorem orderCommit (h : TimeKept g s t) : TimeKept g s (orderCommit t) := h.untouched rfl rfl

theorem writeOrders {ws : List (Nat × Byte)} (h : TimeKept g s t) : TimeKept g s (writeOrders ws t) :=
  .ite (.pacingResetNow (.ite h.orderCommit h)) (.ite h.orderCommit h)

theorem writeBytes {pointer : Byte} {data : Bytes} (h : TimeKept g s t) :
    TimeKept g s (writeBytes pointer data t) := by
  have moved : TimeKept g s (movePointer pointer data.length t) := h.untouched rfl rfl
  exact .ite moved.writeSettings (.ite moved.writeTraps (.ite moved.writeOrders moved))

theorem writePart {address : BitVec 7} {pointer : Byte} {data : Bytes} (h : TimeKept g s t) :
    TimeKept g s (writePart address pointer data t) :=
  .ite h.writeBytes.finish (h.untouched rfl rfl)

theorem readPart {address : BitVec 7} {start : Bool} {n : Nat} (h : TimeKept g s t) :
    TimeKept g s (readPart address start n t) :=
  .ite (h.untouched rfl rfl) (h.untouched rfl rfl)

theorem beginStore (h : TimeKept g s t) : TimeKept g s (beginStore t) := .ite (h.untouched rfl rfl) h

theorem endStore (h : TimeKept g s t) : TimeKept g s (endStore t) := .ite (h.untouched rfl rfl) h

end TimeKept
end Sys2Proof.StationTime
end
section
/-!
The statements on the station-time counter (R5) and on the role preference (R14), from what each command keeps.
-/

namespace Sys2Proof.StationTime

open Sys2Proof.Machine

/-- The link that a command may make the holder of the time role: the one that takes it or that is bound. -/
def roleGainer : Instr → Option Link
  | .roleTake l _ => some l
  | .bind l => some l
  | .registerWrite (.linkWindow l offset value) => if offset = 0x04 ∧ value = 1 then some l else none
  | _ => none

theorem eq_of_roleGainer {c : Instr} {l : Link} (h : roleGainer c = some l) :
    (∃ r, c = .roleTake l r) ∨ c = .bind l ∨ c = .registerWrite (.linkWindow l 0x04 1) := by
  unfold roleGainer at h
  split at h
  next m r =>
    obtain rfl := Option.some.inj h
    exact .inl ⟨r, rfl⟩
  next m =>
    obtain rfl := Option.some.inj h
    exact .inr (.inl rfl)
  next m offset value =>
    split at h
    next control =>
      obtain ⟨rfl, rfl⟩ := control
      obtain rfl := Option.some.inj h
      exact .inr (.inr rfl)
    next => cases h
  next => cases h

/-- The offset of a register is a byte, so the window's offset 4 is that byte. -/
theorem roleGainer_linkWindow {l : Link} {offset : BitVec 8} {v : BitVec 32} (h : offset.toNat = 0x04 ∧ v = 1) :
    roleGainer (.registerWrite (.linkWindow l offset v)) = some l :=
  if_pos ⟨BitVec.eq_of_toNat_eq h.1, h.2⟩

/-- Every command but power-on and the low read keeps the latches, and makes no holder but its own link. -/
theorem exec_timeKept (c : Instr) (s : State) (low : ∀ l, c ≠ .stationTimeLowRead l)
    (on : ∀ up, c ≠ .powerOnReset up) : ∃ t, exec c s = .next t ∧ TimeKept (roleGainer c) s t := by
  have same : TimeKept (roleGainer c) s s := .refl s
  cases c with
  | powerOnReset up => exact absurd rfl (on up)
  | stationTimeLowRead l => exact absurd rfl (low l)
  | settingsRecallEnd => exact ⟨_, rfl, same.endRecall⟩
  | nominalNanosecond => exact ⟨_, rfl, same.nominalTick⟩
  | absorption => exact ⟨_, rfl, .ite same.nominalTick same⟩
  | bind l => exact ⟨_, rfl, same.bindLink⟩
  | unbind l => exact ⟨_, rfl, same.unbindLink⟩
  | pcieLinkLoss l => exact ⟨_, rfl, same.loseLink⟩
  | pcieFunctionReset l => exact ⟨_, rfl, same.resetFunction⟩
  | registerWrite target =>
    cases target with
    | linkWindow l offset v => exact ⟨_, rfl, same.writeWindow roleGainer_linkWindow⟩
    | map address pointer data => exact ⟨_, rfl, same.writePart⟩
  | requestTailWrite l v => exact ⟨_, rfl, same.writeTail⟩
  | requestReadTimeout l => exact ⟨_, rfl, .ite same.requestFault same⟩
  | requestReadError l => exact ⟨_, rfl, same.requestFault⟩
  | unknownKind l r => exact ⟨_, rfl, same.takeRequest .respond⟩
  | nop l r => exact ⟨_, rfl, same.takeRequest .respond⟩
  | window l r => exact ⟨_, rfl, same.takeRequest .setWindow⟩
  | openStream l r replies => exact ⟨_, rfl, same.takeWithReads (.judgeOpen l r replies s)⟩
  | amend l r replies => exact ⟨_, rfl, same.takeWithReads (.judgeAmend l r replies s)⟩
  | closeGraceful l r => exact ⟨_, rfl, (same.takeRequest .requestCloseGraceful).finish⟩
  | closeImmediate l r => exact ⟨_, rfl, (same.takeRequest .requestCloseImmediate).finish⟩
  | standbyJoin l r => exact ⟨_, rfl, same.takeRequest .requestJoin⟩
  | standbyLeave l r => exact ⟨_, rfl, same.takeRequest .requestLeave⟩
  | adopt l r => exact ⟨_, rfl, same.takeRequest .requestAdopt⟩
  | submit l r replies => exact ⟨_, rfl, same.takeWithReads (.judgeSubmit l r replies s)⟩
  | cancelOne l r => exact ⟨_, rfl, same.takeRequest .requestCancelOne⟩
  | cancelThrough l r => exact ⟨_, rfl, same.takeRequest .requestCancelThrough⟩
  | timeSetTrim l r => exact ⟨_, rfl, same.takeRequest .timeTrim⟩
  | timeSetStep l r => exact ⟨_, rfl, (same.takeRequest .timeStep).finish⟩
  | roleTake l r => exact ⟨_, rfl, same.takeRequest .roleRequestTake⟩
  | roleRelease l r => exact ⟨_, rfl, same.takeRequest .roleRequestRelease⟩
  | bulkSetupSet l r replies => exact ⟨_, rfl, same.takeWithReads (.judgeSetup l r replies s)⟩
  | bulkSetupClear l r => exact ⟨_, rfl, same.takeRequest .requestClear⟩
  | bulkPost l r replies => exact ⟨_, rfl, same.takeWithReads (.judgePost l r replies s)⟩
  | bulkAbortOne l r => exact ⟨_, rfl, (same.takeRequest .requestAbortOne).finish⟩
  | bulkAbortAll l r => exact ⟨_, rfl, (same.takeRequest .requestAbortAll).finish⟩
  | trapClearDevice l r => exact ⟨_, rfl, same.takeRequest .requestClearDevice⟩
  | trapClearStream l r => exact ⟨_, rfl, same.takeRequest .requestClearStream⟩
  | reportStream l r => exact ⟨_, rfl, same.takeRequest .requestReportStream⟩
  | reportDevice l r => exact ⟨_, rfl, same.takeRequest .requestReportDevice⟩
  | completionHeadWrite l v => exact ⟨_, rfl, same.writeHead⟩
  | frameSelectionEvent i => exact ⟨_, rfl, same.selectionEvent.finish⟩
  | readIssue l => exact ⟨_, rfl, same.issueRead.finish⟩
  | readCompletion l n data => exact ⟨_, rfl, same.completeRead.finish⟩
  | readTimeout l n => exact ⟨_, rfl, same.timeoutRead.finish⟩
  | readError l n => exact ⟨_, rfl, same.errorRead.finish⟩
  | bulkBlockAsk c => exact ⟨_, rfl, same.askBlock⟩
  | headEligible i => exact ⟨_, rfl, same.reportEligible⟩
  | deadlineExpiry i => exact ⟨_, rfl, .finish (same.steady (.expireHead (.refl s) i))⟩
  | creditReady => exact ⟨_, rfl, same.reportCredit⟩
  | bulkTripExpiry => exact ⟨_, rfl, same.expireTrip.finish⟩
  | packetEnd => exact ⟨_, rfl, same.endPacket⟩
  | uplinkLoss => exact ⟨_, rfl, same.loseUplink⟩
  | uplinkRestore => exact ⟨_, rfl, same.restoreUplink⟩
  | feedbackFrame frame => exact ⟨_, rfl, same.receiveFrame.finish⟩
  | holdTimerExpiry c => exact ⟨_, rfl, same.expireHold.finish⟩
  | mapRead address start n => exact ⟨_, rfl, same.readPart⟩
  | settingsWrite address pointer data => exact ⟨_, rfl, .ite same.writePart same⟩
  | mapTrapClear address pointer data => exact ⟨_, rfl, .ite same.writePart same⟩
  | commit address pointer data => exact ⟨_, rfl, .ite same.writePart same⟩
  | storeCompletion => exact ⟨_, rfl, same.endStore⟩
  | pacingReset address pointer data => exact ⟨_, rfl, .ite same.writePart same⟩
  | storeBegin => exact ⟨_, rfl, same.beginStore⟩

theorem timeKept_of_exec {c : Instr} {s t : State} (h : exec c s = .next t) (low : ∀ l, c ≠ .stationTimeLowRead l)
    (on : ∀ up, c ≠ .powerOnReset up) : TimeKept (roleGainer c) s t := by
  obtain ⟨u, run, kept⟩ := exec_timeKept c s low on
  obtain rfl := Host.Outcome.next.inj (run.symm.trans h)
  exact kept

/-! ## Power-on and the low read -/

theorem exec_powerOnReset {up : Bool} {s t : State} (h : exec (.powerOnReset up) s = .next t) :
    t.clock = Clock.initial ∧ ∀ l, t.links.get l = LinkIf.initial := by
  obtain rfl := Host.Outcome.next.inj h
  unfold powerOn
  cases up <;> exact ⟨rfl, fun l => by cases l <;> rfl⟩

theorem exec_stationTimeLowRead (l : Link) (s : State) :
    exec (.stationTimeLowRead l) s = .next (readTimeLow l s) := rfl

theorem readTimeLow_eq (l : Link) (s : State) :
    readTimeLow l s = { s with
      links := s.links.modify l fun k => { k with latch := s.clock.time.extractLsb' 32 32 }
      outputs := s.outputs ++ [.timeLow l (s.clock.time.extractLsb' 0 32)] } := rfl

/-! ## The two halves (R5) -/

theorem linkRegister_low (s : State) (l : Link) : linkRegister s l 0x38 = s.clock.time.extractLsb' 0 32 := rfl

theorem linkRegister_high (s : State) (l : Link) : linkRegister s l 0x3C = (s.links.get l).latch := rfl

theorem extract_high_append_low (x : BitVec 64) : x.extractLsb' 32 32 ++ x.extractLsb' 0 32 = x := by
  rw [BitVec.extractLsb'_append_extractLsb'_eq_extractLsb' (by decide)]
  simp

/-- The halves of station time are read-only: a write to an offset that is no geometry register and has no behaviour of its
own changes nothing (R193). -/
theorem writeWindow_half {offset : Nat} (h : offset = 0x38 ∨ offset = 0x3C) (l : Link) (v : BitVec 32) (s : State) :
    writeWindow l offset v s = s := by
  have kept : ∀ k, writeGeometry offset v k = k := fun k => by rcases h with rfl | rfl <;> simp [writeGeometry]
  have ignored : writeWindow l offset v s = modLink l (writeGeometry offset v) s := by rcases h with rfl | rfl <;> rfl
  have links : s.links.modify l (writeGeometry offset v) = s.links := by
    refine PerLink.ext_get fun m => ?_
    by_cases e : m = l
    · rw [e, PerLink.get_modify_same, kept]
    · rw [PerLink.get_modify_ne _ _ e]
  rw [ignored, modLink, links]

theorem latch_of_other_low_read {l m : Link} {s : State} (h : l ≠ m) :
    ((readTimeLow m s).links.get l).latch = (s.links.get l).latch := by
  rw [readTimeLow_eq]
  simp only [PerLink.get_modify_ne _ _ h]

/-- Settles O8: the low read by its equation, and the frame over all other commands from what each of them keeps. -/
theorem stationTimeReadsInTwoHalves : Obligations.StationTimeReadsInTwoHalves := by
  unfold Obligations.StationTimeReadsInTwoHalves
  refine ⟨fun l s => ?read, fun l s v => ?write, fun l c s t run other on => ?frame, fun l up s t run => ?reset⟩
  case read =>
    refine ⟨_, exec_stationTimeLowRead l s, rfl, ?_, ?_, ?_⟩
    · rw [readTimeLow_eq]; simp
    · rw [readTimeLow_eq]; simp
    · rw [linkRegister_high, readTimeLow_eq]
      simp only [PerLink.get_modify_same]
      exact extract_high_append_low s.clock.time
  case write =>
    exact ⟨linkRegister_low s l, linkRegister_high s l, congrArg _ (writeWindow_half (.inl rfl) l v s),
      congrArg _ (writeWindow_half (.inr rfl) l v s)⟩
  case frame =>
    rw [linkRegister_high, linkRegister_high]
    by_cases low : ∃ m, c = .stationTimeLowRead m
    · obtain ⟨m, rfl⟩ := low
      obtain rfl := Host.Outcome.next.inj run
      exact latch_of_other_low_read fun e => other (by rw [e])
    · exact (timeKept_of_exec run (fun m e => low ⟨m, e⟩) on).latch l
  case reset =>
    rw [linkRegister_high, (exec_powerOnReset run).2 l]
    rfl

/-! ## A bind (R14) -/

/-- The preference moves only the holder of the clock and no link's state. -/
theorem consultPreference_clock (l : Link) (s : State) :
    (consultPreference l s).clock = { s.clock with
      holder := if s.store.active.rolePref = some l ∧ s.clock.holder = none then some l else s.clock.holder } := by
  unfold consultPreference
  split
  · exact (Steady.roleNotice (.roleNotice (.refl (setHolder (some l) s)) .A) .B).clock
  · rfl

theorem consultPreference_up (l m : Link) (s : State) :
    ((consultPreference l s).links.get m).up = (s.links.get m).up := by
  unfold consultPreference
  split
  · exact (Steady.roleNotice (.roleNotice (.refl (setHolder (some l) s)) .A) .B).up m
  · rfl

/-- A bind finds the link UP, leaves it DOWN with the clock as it was, or makes it UP and consults the preference. -/
theorem bindLink_cases (l : Link) (s : State) :
    ((s.links.get l).up = true ∧ bindLink l s = s)
    ∨ ((s.links.get l).up = false ∧ ((bindLink l s).links.get l).up = false ∧ (bindLink l s).clock = s.clock)
    ∨ ((s.links.get l).up = false ∧ bindLink l s = consultPreference l (modLink l boundInterface s)) := by
  unfold bindLink
  cases hu : (s.links.get l).up with
  | true => exact .inl ⟨rfl, rfl⟩
  | false =>
    rw [if_neg Bool.false_ne_true]
    split
    · exact .inr (.inl ⟨rfl, by simp [hu], rfl⟩)
    · split
      · exact .inr (.inl ⟨rfl, by simp [hu], rfl⟩)
      · exact .inr (.inr ⟨rfl, rfl⟩)

theorem bindLink_clock (l : Link) (s : State) :
    ((s.links.get l).up = false → ((bindLink l s).links.get l).up = true →
      (bindLink l s).clock = { s.clock with
        holder := if s.store.active.rolePref = some l ∧ s.clock.holder = none then some l else s.clock.holder })
    ∧ (((bindLink l s).links.get l).up = false ∨ (s.links.get l).up = true → (bindLink l s).clock = s.clock) := by
  rcases bindLink_cases l s with ⟨up, same⟩ | ⟨down, still, clock⟩ | ⟨down, bound⟩
  · refine ⟨fun down => ?_, fun _ => by rw [same]⟩
    rw [up] at down
    cases down
  · refine ⟨fun _ now => ?_, fun _ => clock⟩
    rw [still] at now
    cases now
  · have now : ((bindLink l s).links.get l).up = true := by
      rw [bound, consultPreference_up, modLink_links, PerLink.get_modify_same]
      rfl
    refine ⟨fun _ _ => ?_, fun neither => ?_⟩
    · rw [bound]
      exact consultPreference_clock l (modLink l boundInterface s)
    · rw [now, down] at neither
      simp at neither

/-! ## A write of the preference (R14, R188) -/

theorem writeSettings_clock (ws : List (Nat × Byte)) (s : State) : (writeSettings ws s).clock = s.clock := by
  unfold writeSettings
  extract_lets keep active stored cut
  split
  · rfl
  · exact (Steady.recompute (.refl cut)).clock

theorem writeSettings_active (ws : List (Nat × Byte)) (s : State) :
    (writeSettings ws s).store.active
      = withWritten s.store.active ws (acceptedSettings s.store.active ws s.uplink.portRate) := by
  unfold writeSettings
  extract_lets keep active stored cut
  split
  next none =>
    have empty : keep = [] := List.isEmpty_iff.1 none
    show s.store.active = withWritten s.store.active ws keep
    rw [empty]
    rfl
  next =>
    rw [(Steady.recompute (.refl cut)).store]
    rfl

/-- An acknowledged write part over the settings rows is a settings write after the pointer has moved, and the transmit
opportunity that may follow. -/
theorem writePart_settings {address : BitVec 7} {pointer : Byte} {data : Bytes} {s : State}
    (row : 8 ≤ pointer.toNat / 8 ∧ pointer.toNat / 8 < 12) (ack : acknowledged s address = true) :
    writePart address pointer data s
      = finish s (writeSettings (placed pointer data) (movePointer pointer data.length s)) := by
  unfold writePart writeBytes
  rw [if_pos ack, if_pos row]

theorem exec_settingsWrite_clock {address : BitVec 7} {pointer : Byte} {data : Bytes} {s t : State}
    (h : exec (.settingsWrite address pointer data) s = .next t) : t.clock = s.clock := by
  obtain rfl := Host.Outcome.next.inj h
  split
  next row =>
    cases ack : acknowledged s address with
    | true => rw [writePart_settings row ack, (Steady.finish (.refl _) s).clock, writeSettings_clock]; rfl
    | false => unfold writePart; rw [ack]; rfl
  next => rfl

theorem prefOf_linkCode (p : Option Link) : prefOf (linkCode p).toNat = p := by
  rcases p with _ | _ | _ <;> rfl

theorem linkCode_le_two (p : Option Link) : (linkCode p).toNat ≤ 2 := by
  rcases p with _ | _ | _ <;> decide

/-- The write part of one byte at the preference's address. -/
theorem placed_preference (b : Byte) : placed 0x47 [b] = [(0x47, b)] := by
  simp [placed, landing]

theorem settingValue_preference (x : Settings) (b : Byte) :
    settingValue x [(0x47, b)] .rolePref = b.toNat := by
  simp [settingValue, settingPlace, lastWritten, leNat]

theorem settingInRange_preference (x : Settings) (p : Option Link) :
    settingInRange .rolePref (settingValue x [(0x47, linkCode p)] .rolePref) = true := by
  rw [settingValue_preference]
  exact decide_eq_true (linkCode_le_two p)

theorem settingWritten_preference (b : Byte) (x : SettingId) :
    settingWritten [(0x47, b)] x = (x == .rolePref) := by
  cases x <;> rfl

/-- No cross-check names the preference (R188). -/
theorem dropRefused_preference (x : Settings) (ws : List (Nat × Byte)) (portRate : Nat) :
    dropRefused x ws portRate [.rolePref] = [.rolePref] := by
  simp [dropRefused]

theorem acceptedSettings_preference (x : Settings) (p : Option Link) (portRate : Nat) :
    acceptedSettings x [(0x47, linkCode p)] portRate = [.rolePref] := by
  have written : (allSettings.filter fun y => settingWritten [(0x47, linkCode p)] y
      && settingInRange y (settingValue x [(0x47, linkCode p)] y)) = [.rolePref] := by
    simp [allSettings, settingWritten_preference, settingInRange_preference]
  unfold acceptedSettings
  simp only [written, dropRefused_preference]

theorem exec_settingsWrite_preference {address : BitVec 7} {p : Option Link} {s t : State}
    (h : exec (.settingsWrite address 0x47 [linkCode p]) s = .next t) (ack : acknowledged s address = true) :
    t.store.active = { s.store.active with rolePref := p } := by
  obtain rfl := Host.Outcome.next.inj h
  have row : 8 ≤ (0x47 : Byte).toNat / 8 ∧ (0x47 : Byte).toNat / 8 < 12 := by decide
  rw [if_pos row, writePart_settings row ack, (Steady.finish (.refl _) s).store, placed_preference,
    writeSettings_active, acceptedSettings_preference]
  show putSetting .rolePref (settingValue s.store.active [(0x47, linkCode p)] .rolePref) s.store.active = _
  rw [settingValue_preference]
  unfold putSetting
  rw [prefOf_linkCode]

/-- A holder is made by its own TAKE or bind only (R11, R14). -/
theorem holder_of_exec {l : Link} {c : Instr} {s t : State} (run : exec c s = .next t)
    (holds : t.clock.holder = some l) (gained : s.clock.holder ≠ some l) :
    (∃ r, c = .roleTake l r) ∨ c = .bind l ∨ c = .registerWrite (.linkWindow l 0x04 1) := by
  by_cases low : ∃ m, c = .stationTimeLowRead m
  · obtain ⟨m, rfl⟩ := low
    obtain rfl := Host.Outcome.next.inj run
    exact absurd holds gained
  by_cases on : ∃ up, c = .powerOnReset up
  · obtain ⟨up, rfl⟩ := on
    rw [(exec_powerOnReset run).1] at holds
    cases holds
  rcases (timeKept_of_exec run (fun m e => low ⟨m, e⟩) (fun up e => on ⟨up, e⟩)).holder with stands | freed | gainer
  · exact absurd (stands.symm.trans holds) gained
  · rw [freed] at holds
    cases holds
  · exact eq_of_roleGainer (gainer.symm.trans holds)

/-- Settles O9: the bind by its cases, the settings write by what it accepts, and the gain of the role from what every
command keeps. -/
theorem rolePreferenceActsAtABind : Obligations.RolePreferenceActsAtABind := by
  unfold Obligations.RolePreferenceActsAtABind
  refine ⟨rfl, fun l s t run => ?bind, fun address pointer data s t run => ⟨?clock, fun p ack at47 one => ?active⟩,
    fun l c s t run => holder_of_exec run⟩
  case bind =>
    obtain rfl := Host.Outcome.next.inj run
    exact bindLink_clock l s
  case clock => exact exec_settingsWrite_clock run
  case active =>
    subst at47 one
    exact exec_settingsWrite_preference run ack

end Sys2Proof.StationTime
end
